-- ==== Sys2Proof/Word.lean ====
section
/-! DEFINITION. The word types of the part and the number ranges of its names (section 5.4 of 00_scope.md). -/

namespace Sys2Proof

/-- One byte as carried on the control port or on a breath link. -/
abbrev Byte := BitVec 8
/-- A two-byte field, or one wave sample. -/
abbrev Half := BitVec 16
/-- A four-byte field: a key set, a timebase value, a phase. -/
abbrev Word := BitVec 32

/-- S0 to S3. -/
abbrev StationId := Fin 4
/-- V0 to V31. -/
abbrev VoiceId := Fin 32
/-- C0 to C7. -/
abbrev ChartId := Fin 8
/-- T0 to T15. -/
abbrev TemplateId := Fin 16
/-- W0 to W31. -/
abbrev WaveId := Fin 32
/-- key 0 to key 31. -/
abbrev KeyId := Fin 32
/-- layer 0, 1, 2. -/
abbrev LayerId := Fin 3

end Sys2Proof
end

