-- ==== Sys2Proof/Syntax.lean ====
section
/-! DEFINITION. The commands of the part: one constructor of Instr per row of spec/opcode_table.json. -/

namespace Sys2Proof

/-- A chart entry as the chart commands carry it, 12 bytes (R169). -/
structure EntryParams where
  mask      : Word
  pattern   : Word
  note      : Byte
  regKey    : Byte
  step      : Byte
  breathReg : Byte
  deriving DecidableEq, Repr

/-- A template layer as TEMPLATE_SET carries it, 12 bytes (R169). -/
structure LayerParams where
  waveA     : Byte
  waveB     : Byte
  transpose : Byte
  fine      : Byte
  level     : Byte
  pan       : Byte
  cond      : Byte
  sense     : Byte
  attack    : Half
  release   : Half
  deriving DecidableEq, Repr

/-- The 27 parameter bytes of STATION_SET, field by field (R169). -/
structure StationSetParams where
  station    : Byte
  enable     : Byte
  follow     : Byte
  spread     : Half
  template   : Byte
  chart      : Byte
  settle     : Byte
  mode       : Byte
  glide      : Byte
  threshold  : Half
  gain       : Byte
  curve      : Byte
  ceiling    : Half
  overblow   : Half
  hysteresis : Byte
  deadZone   : Byte
  bendGain   : Byte
  bendRange  : Half
  reserve    : Byte
  cap        : Byte
  transpose  : Byte
  outGain    : Byte
  deriving DecidableEq, Repr

/-- The commands and events of the part, one constructor per row of spec/opcode_table.json.

A control-port command carries its parameter fields as they stand on the wire (R169).
An event inside the part carries the station or voice it concerns; what it works on (the buffered
frame, the waiting expiry) stands in State. -/
inductive Instr where
  /-- POWER_ON: the part comes out of power-down (section 5.8, R121). -/
  | powerOn
  /-- POWER_ON_CLEAR_END: the clear of wave memory writes its last address (R121). -/
  | powerOnClearEnd
  /-- PIN_RESET: RST_N is asserted (R126). -/
  | pinReset
  /-- TRANSACTION_BEGIN: CS_N falls (R163). -/
  | transactionBegin
  /-- TRANSACTION_END: CS_N rises (R163, R165). -/
  | transactionEnd
  /-- UNKNOWN_COMMAND_BYTE: a command byte that names no command (R165). -/
  | unknownCommandByte (b : Byte)
  /-- STATUS_READ 0x01 (R167). -/
  | statusRead
  /-- STATION_READ 0x02: station number, clear flag (R139). -/
  | stationRead (station clear : Byte)
  /-- STATION_SET 0x03 (R128). -/
  | stationSet (p : StationSetParams)
  /-- KEYSENSE_SET 0x04: station number and 8 bytes of senses (R45, R169). -/
  | keysenseSet (station : Byte) (senses : Vector Byte 8)
  /-- STATION_RESTART 0x05 (R137). -/
  | stationRestart (station : Byte)
  /-- PANIC 0x06 (R138, R102). -/
  | panic
  /-- CHART_READ 0x10 (R41). -/
  | chartRead (chart pos : Byte)
  /-- CHART_APPEND 0x11 (R32). -/
  | chartAppend (chart : Byte) (e : EntryParams)
  /-- CHART_INSERT 0x12 (R33). -/
  | chartInsert (chart pos : Byte) (e : EntryParams)
  /-- CHART_REPLACE 0x13 (R34). -/
  | chartReplace (chart pos : Byte) (e : EntryParams)
  /-- CHART_REMOVE 0x14 (R35). -/
  | chartRemove (chart pos : Byte)
  /-- CHART_CLEAR 0x15 (R36). -/
  | chartClear (chart : Byte)
  /-- CHART_INFO 0x16 (R42). -/
  | chartInfo
  /-- EDIT_COMPLETION: the edit in flight completes (R37); `order` is the order in which stations
  stalled on it make their lookups, those it does not list after those it lists (log 12). -/
  | editCompletion (order : List StationId)
  /-- TEMPLATE_SET 0x20: template number, layer count, three layer records (R69). -/
  | templateSet (template count : Byte) (l0 l1 l2 : LayerParams)
  /-- TEMPLATE_READ 0x21 (R73). -/
  | templateRead (template : Byte)
  /-- TEMPLATE_CLEAR 0x22 (R72). -/
  | templateClear (template : Byte)
  /-- WAVE_DEFINE 0x30 (R122). -/
  | waveDefine (wave : Byte) (start : Half) (k : Byte)
  /-- WAVE_WRITE 0x31: start, count n, n samples; no samples follow a count of 0 or above 64
  (R124, R163). -/
  | waveWrite (start : Half) (count : Byte) (samples : List Half)
  /-- WAVE_READ 0x32 (R125). -/
  | waveRead (start : Half) (count : Byte)
  /-- WAVE_DELETE 0x33 (R123). -/
  | waveDelete (wave : Byte)
  /-- VOICE_READ 0x40 (R106). -/
  | voiceRead (voice : Byte)
  /-- FAULT_READ 0x50 (R159). -/
  | faultRead
  /-- FAULT_CLEAR 0x51 (R160). -/
  | faultClear (count : Half)
  /-- VOICE_RETIRE 0x52 (R162). -/
  | voiceRetire (voice : Byte)
  /-- FAULT_POLICY 0x53: enable set, mask set (R157). -/
  | faultPolicy (enable mask : Half)
  /-- CHARACTER: the levels of the receive line in successive MCLK periods, up to the one in which the
  character completes, as its sender divides them among start bit, data bits, mark bit and stop bit
  (R141, R168; log 19). -/
  | character (st : StationId) (start data mark stop : List Bool)
  /-- SYNC: a falling edge and the nine edges after it: the nine intervals between successive
  edges in MCLK periods, and the line's level at the middle of the following bit time (R142). -/
  | sync (st : StationId) (intervals : List Nat) (stop : Bool)
  /-- SYNC_TAKEN: the engine takes the SYNC handed to it (R129). -/
  | syncTaken (st : StationId)
  /-- HELLO: the engine takes the HELLO in the frame buffer (R130). -/
  | hello (st : StationId)
  /-- PLAY: the engine takes the PLAY in the frame buffer (R133). -/
  | play (st : StationId)
  /-- HUSH: the engine takes the HUSH in the frame buffer (R134). -/
  | hush (st : StationId)
  /-- REPLY_END: the last character of the reply being sent ends (R152). -/
  | replyEnd (st : StationId)
  /-- SETTLE_EXPIRY: the engine takes the expiry of its settle timer (R50). -/
  | settleExpiry (st : StationId)
  /-- SILENCE_TIMEOUT: the engine takes the expiry of its silence timer (R135). -/
  | silenceTimeout (st : StationId)
  /-- SAMPLE_PERIOD: one sample period (R1, R113 to R120); `voices` is the order in which the
  renderer steps the voices and `stations` the order of the clip reports, those not listed after
  those listed (log 12). -/
  | samplePeriod (voices : List VoiceId) (stations : List StationId)
  /-- GLIDE_STEP: the voice's glide countdown expires, taken ahead of the rest of its step
  (R111; log 14). -/
  | glideStep (v : VoiceId)
  /-- RELEASE_COMPLETION: the reported end of a release is acted on (R94). -/
  | releaseCompletion (v : VoiceId)
  /-- ORPHAN_DRAIN_COMPLETION: the reported end of an orphan's drain is acted on (R94). -/
  | orphanDrainCompletion (v : VoiceId)
  /-- DRAIN_COMPLETION: the reported end of a bound voice's drain is acted on (R91). -/
  | drainCompletion (v : VoiceId)
  /-- PIN_RESET_RELEASE: RST_N is released (R165). -/
  | pinResetRelease
  /-- PARAMETER_BYTE: a known command byte that has parameters, or a parameter byte other than
  the last, is taken (R163). -/
  | parameterByte (b : Byte)
  /-- NOT_READY: a command byte taken during the power-on clear (R165). -/
  | notReady (b : Byte)
  /-- RESPONSE_END: the last byte of the response has been shifted out (R164). -/
  | responseEnd
  deriving DecidableEq, Repr

end Sys2Proof
end

