-- ==== Sys2Proof/WellFormed.lean ====
section
/-! DEFINITION. Which terms of Instr the wire can carry. -/

namespace Sys2Proof

/-- A list names each thing at most once. -/
def Instr.noRepeats {n : Nat} : List (Fin n) → Bool
  | [] => true
  | x :: xs => !(xs.contains x) && noRepeats xs

/-- How many samples follow the count byte of WAVE_WRITE (R163): a count of 0 or above 64 makes the
count byte the last parameter byte. -/
def Instr.samplesFor (count : Byte) : Nat :=
  if count.toNat = 0 ∨ 64 < count.toNat then 0 else count.toNat

/-- The checks an operand must pass beyond its type: WAVE_WRITE carries the samples its count byte
names (R163), a SYNC pattern has nine intervals of at least one MCLK period (R142), and an order
operand names nothing twice. -/
def Instr.wellFormed : Instr → Bool
  | .waveWrite _ count samples => samples.length == samplesFor count
  | .sync _ intervals _ => intervals.length == 9 && intervals.all (fun n => 0 < n)
  | .editCompletion order => noRepeats order
  | .samplePeriod voices stations => noRepeats voices && noRepeats stations
  | .powerOn | .powerOnClearEnd | .pinReset | .transactionBegin | .transactionEnd
  | .unknownCommandByte _ | .statusRead | .stationRead _ _ | .stationSet _ | .keysenseSet _ _
  | .stationRestart _ | .panic | .chartRead _ _ | .chartAppend _ _ | .chartInsert _ _ _
  | .chartReplace _ _ _ | .chartRemove _ _ | .chartClear _ | .chartInfo
  | .templateSet _ _ _ _ _ | .templateRead _ | .templateClear _ | .waveDefine _ _ _
  | .waveRead _ _ | .waveDelete _ | .voiceRead _ | .faultRead | .faultClear _ | .voiceRetire _
  | .faultPolicy _ _ | .character _ _ _ _ _ | .syncTaken _ | .hello _ | .play _ | .hush _
  | .replyEnd _ | .settleExpiry _ | .silenceTimeout _ | .glideStep _ | .releaseCompletion _
  | .orphanDrainCompletion _ | .drainCompletion _ | .pinResetRelease | .parameterByte _
  | .notReady _ | .responseEnd => true

end Sys2Proof
end

