-- ==== Sys2Proof/Decode.lean ====
section
/-! DEFINITION. The command that bytes name at the control port: the command bytes of R166 with their numbers of
parameter bytes, and the layouts of R169. -/

namespace Sys2Proof

/-! ### Numbers and records from their bytes, most significant byte first (R163, R169) -/

/-- The two-byte field that these bytes carry. -/
def halfOf (hi lo : Byte) : Half := hi ++ lo

/-- The four-byte field that these bytes carry. -/
def wordOf (b3 b2 b1 b0 : Byte) : Word := halfOf b3 b2 ++ halfOf b1 b0

/-- The chart entry that 12 bytes carry. -/
def entryFrom : List Byte → Option EntryParams
  | [m3, m2, m1, m0, p3, p2, p1, p0, note, regKey, step, breathReg] =>
    some ⟨wordOf m3 m2 m1 m0, wordOf p3 p2 p1 p0, note, regKey, step, breathReg⟩
  | _ => none

/-- The position and the chart entry that CHART_INSERT and CHART_REPLACE carry after the chart number. -/
def placedFrom : List Byte → Option (Byte × EntryParams)
  | pos :: l => (entryFrom l).map (pos, ·)
  | [] => none

/-- The template layer that 12 bytes carry. -/
def layerFrom : List Byte → Option LayerParams
  | [waveA, waveB, transpose, fine, level, pan, cond, sense, a1, a0, r1, r0] =>
    some ⟨waveA, waveB, transpose, fine, level, pan, cond, sense, halfOf a1 a0, halfOf r1 r0⟩
  | _ => none

/-- The settings of STATION_SET that 27 bytes carry. -/
def stationSetFrom : List Byte → Option StationSetParams
  | [station, enable, follow, s1, s0, template, chart, settle, mode, glide, t1, t0, gain, curve,
      c1, c0, x1, x0, hysteresis, deadZone, bendGain, b1, b0, reserve, cap, transpose, outGain] =>
    some ⟨station, enable, follow, halfOf s1 s0, template, chart, settle, mode, glide,
      halfOf t1 t0, gain, curve, halfOf c1 c0, halfOf x1 x0, hysteresis, deadZone, bendGain,
      halfOf b1 b0, reserve, cap, transpose, outGain⟩
  | _ => none

/-- The key senses that eight bytes carry. -/
def sensesFrom (l : List Byte) : Option (Vector Byte 8) :=
  if h : l.length = 8 then some ⟨l.toArray, h⟩ else none

/-- The samples that bytes carry, two bytes each. -/
def samplesFrom : List Byte → Option (List Half)
  | [] => some []
  | [_] => none
  | hi :: lo :: l => (samplesFrom l).map (halfOf hi lo :: ·)

/-- The WAVE_WRITE that its parameter bytes carry: as many samples as its count byte says (R163). -/
def waveWriteFrom : List Byte → Option Instr
  | s1 :: s0 :: count :: l => do
    let samples ← samplesFrom l
    if samples.length = Instr.samplesFor count then
      some (.waveWrite (halfOf s1 s0) count samples)
    else none
  | _ => none

/-- The TEMPLATE_SET that its parameter bytes carry. -/
def templateSetFrom : List Byte → Option Instr
  | template :: count :: l => do
    let l0 ← layerFrom (l.take 12)
    let l1 ← layerFrom ((l.drop 12).take 12)
    let l2 ← layerFrom (l.drop 24)
    return .templateSet template count l0 l1 l2
  | _ => none

/-! ### The commands by their command bytes (R166) -/

/-- The number of parameter bytes of each command; none where the byte names no command (R166).
For WAVE_WRITE it is the three bytes up to the count byte. -/
def paramCount (cmd : Byte) : Option Nat :=
  match cmd.toNat with
  | 0x01 => some 0
  | 0x02 => some 2
  | 0x03 => some 27
  | 0x04 => some 9
  | 0x05 => some 1
  | 0x06 => some 0
  | 0x10 => some 2
  | 0x11 => some 13
  | 0x12 => some 14
  | 0x13 => some 14
  | 0x14 => some 2
  | 0x15 => some 1
  | 0x16 => some 0
  | 0x20 => some 38
  | 0x21 => some 1
  | 0x22 => some 1
  | 0x30 => some 4
  | 0x31 => some 3
  | 0x32 => some 3
  | 0x33 => some 1
  | 0x40 => some 1
  | 0x50 => some 0
  | 0x51 => some 2
  | 0x52 => some 1
  | 0x53 => some 4
  | _ => none

/-- A command without parameters. -/
def params0 (c : Instr) : List Byte → Option Instr
  | [] => some c
  | _ => none

/-- A command of one parameter byte. -/
def params1 (f : Byte → Instr) : List Byte → Option Instr
  | [a] => some (f a)
  | _ => none

/-- A command of two parameter bytes. -/
def params2 (f : Byte → Byte → Instr) : List Byte → Option Instr
  | [a, b] => some (f a b)
  | _ => none

/-- A command of three parameter bytes. -/
def params3 (f : Byte → Byte → Byte → Instr) : List Byte → Option Instr
  | [a, b, c] => some (f a b c)
  | _ => none

/-- A command of four parameter bytes. -/
def params4 (f : Byte → Byte → Byte → Byte → Instr) : List Byte → Option Instr
  | [a, b, c, d] => some (f a b c d)
  | _ => none

/-- A command whose parameters are a byte and then a record. -/
def paramsThen {α : Type} (record : List Byte → Option α) (f : Byte → α → Instr) :
    List Byte → Option Instr
  | a :: l => (record l).map (f a)
  | [] => none

/-- The command that a command byte and parameter bytes name: none where the byte names no command or the
bytes are not as many as the command has (R166, R169). -/
def commandOf (cmd : Byte) (bytes : List Byte) : Option Instr :=
  match cmd.toNat with
  | 0x01 => params0 .statusRead bytes
  | 0x02 => params2 .stationRead bytes
  | 0x03 => (stationSetFrom bytes).map .stationSet
  | 0x04 => paramsThen sensesFrom .keysenseSet bytes
  | 0x05 => params1 .stationRestart bytes
  | 0x06 => params0 .panic bytes
  | 0x10 => params2 .chartRead bytes
  | 0x11 => paramsThen entryFrom .chartAppend bytes
  | 0x12 => paramsThen placedFrom (fun chart x => .chartInsert chart x.1 x.2) bytes
  | 0x13 => paramsThen placedFrom (fun chart x => .chartReplace chart x.1 x.2) bytes
  | 0x14 => params2 .chartRemove bytes
  | 0x15 => params1 .chartClear bytes
  | 0x16 => params0 .chartInfo bytes
  | 0x20 => templateSetFrom bytes
  | 0x21 => params1 .templateRead bytes
  | 0x22 => params1 .templateClear bytes
  | 0x30 => params4 (fun wave s1 s0 k => .waveDefine wave (halfOf s1 s0) k) bytes
  | 0x31 => waveWriteFrom bytes
  | 0x32 => params3 (fun s1 s0 count => .waveRead (halfOf s1 s0) count) bytes
  | 0x33 => params1 .waveDelete bytes
  | 0x40 => params1 .voiceRead bytes
  | 0x50 => params0 .faultRead bytes
  | 0x51 => params2 (fun c1 c0 => .faultClear (halfOf c1 c0)) bytes
  | 0x52 => params1 .voiceRetire bytes
  | 0x53 => params4 (fun e1 e0 m1 m0 => .faultPolicy (halfOf e1 e0) (halfOf m1 m0)) bytes
  | _ => none

/-! ### Words -/

/-- Byte k of a word of nbits bits, its least significant byte first; 0 above them. -/
def wordByte (nbits w k : Nat) : Byte := BitVec.ofNat 8 (w % 2 ^ nbits / 256 ^ k)

/-- The number of parameter bytes of the command whose bytes a word holds, WAVE_WRITE's samples with them. -/
def wordParams (nbits w : Nat) : Option Nat :=
  (paramCount (wordByte nbits w 0)).map fun n =>
    if wordByte nbits w 0 = 0x31 then n + 2 * Instr.samplesFor (wordByte nbits w 3) else n

/-- The command that a word spells: its first byte is the command byte of R166 and the parameter bytes follow,
those beyond the word 0 (log 5). None where the first byte names no command, or the word has more bytes than
the command. -/
def decodeTableWord (nbits w : Nat) : Option Instr := do
  let n ← wordParams nbits w
  if 8 * (n + 1) < nbits then none
  else commandOf (wordByte nbits w 0) ((List.range n).map fun k => wordByte nbits w (k + 1))

end Sys2Proof
end

