-- ==== Sys2Proof/Machine/State.lean ====
section
/-! DEFINITION. Everything the spec gives the part to hold, as plain data, and its value at reset. -/

namespace Sys2Proof.Machine

/-! ### Stops -/

/-- Faults that stop a step. There is none: no rule of the spec stops the part, and its fault kinds
are records of the fault capture, held in State (chapter 9). Safe: nothing stops. -/
inductive Fault
  deriving DecidableEq, Repr

/-- Refusals. -/
inductive Refusal where
  /-- Raised by exec's arm of a row that has no meaning yet; no arm raises it. Safe: a refused row
  proves nothing about the part. -/
  | notModelled (mnemonic : String)
  deriving DecidableEq, Repr

/-! ### Stations: settings, breath, fingering -/

/-- The six states of a station engine, in the order of their numbers 0 to 5 (R126). -/
inductive StationState
  | disabled | offline | synced | calibrating | live | lost
  deriving DecidableEq, Repr

/-- The curve setting: 0 ROOT, 1 LINEAR (R4). -/
inductive Curve
  | root | linear
  deriving DecidableEq, Repr

/-- The note mode: 0 LEGATO, 1 RETRIGGER (R44). -/
inductive NoteMode
  | legato | retrigger
  deriving DecidableEq, Repr

/-- A key's sense: 0 IGNORE, 1 PRESS, 2 RELEASE, 3 BOTH (R45). -/
inductive KeySense
  | ignore | press | release | both
  deriving DecidableEq, Repr

/-- A layer condition's sense: 0 ANY, 1 NONE (R64). -/
inductive CondSense
  | any | noneOf
  deriving DecidableEq, Repr

/-- All settings of one station, in the order of STATION_SET's layout (R4, R44, R83, R109, R127,
R169). -/
structure Settings where
  enable     : Bool
  follow     : Bool
  spread     : Nat
  template   : TemplateId
  chart      : ChartId
  settle     : Nat
  mode       : NoteMode
  glide      : Nat
  threshold  : Nat
  gain       : Nat
  curve      : Curve
  ceiling    : Nat
  overblow   : Nat
  hysteresis : Nat
  deadZone   : Nat
  bendGain   : Nat
  bendRange  : Nat
  reserve    : Nat
  cap        : Nat
  transpose  : Int
  outGain    : Nat
  deriving DecidableEq, Repr

/-- The defaults (R4, R44, R83, R109, R127). -/
def Settings.reset : Settings where
  enable := true
  follow := true
  spread := 96
  template := 0
  chart := 0
  settle := 8
  mode := .legato
  glide := 0
  threshold := 64
  gain := 255
  curve := .root
  ceiling := 1023
  overblow := 0
  hysteresis := 32
  deadZone := 16
  bendGain := 0
  bendRange := 128
  reserve := 0
  cap := 32
  transpose := 0
  outGain := 16

/-- The six indicators (R3, R8). -/
structure Indicators where
  gate   : Bool
  borrow : Bool
  excess : Bool
  clip   : Bool
  bend   : Bool
  raised : Bool
  deriving DecidableEq, Repr

/-- All six indicators clear. -/
def Indicators.clear : Indicators := ⟨false, false, false, false, false, false⟩

/-- What a breath unit holds (R3): the zero, the lip centre, the published breath state, the
overblow history and the borrow run. -/
structure Breath where
  zero      : Nat
  lipCentre : Nat
  level     : Nat
  bend      : Int
  ind       : Indicators
  history   : Bool
  borrowRun : Nat
  deriving DecidableEq, Repr

/-- The breath unit after power-on and pin reset (R3). -/
def Breath.reset : Breath := ⟨0, 0, 0, 0, Indicators.clear, false, 0⟩

/-- A timer of the part in sample periods. `expired` is a timer that has reached 0 and whose expiry
the station engine has not yet taken (R48, R50, R135, R150; log 17). -/
inductive Timer
  | stopped
  | running (remaining : Nat)
  | expired
  deriving DecidableEq, Repr

/-- A region of the wave memory: 2^k samples from start (R122). -/
structure WaveRegion where
  start : Nat
  k     : Nat
  deriving DecidableEq, Repr

/-- A wave reference resolved at NOTE_ON (R75). -/
structure WaveCopy where
  wave   : WaveId
  region : WaveRegion
  deriving DecidableEq, Repr

/-- The fields of a layer other than its waves (R68). `mask` has EXCESS, CLIP, BEND, RAISED in bits
0 to 3 (R79). -/
structure Tone where
  transpose : Int
  fine      : Int
  level     : Nat
  pan       : Nat
  mask      : BitVec 4
  sense     : CondSense
  attack    : Nat
  release   : Nat
  deriving DecidableEq, Repr

/-- A layer as a template holds it (R68). -/
structure Layer where
  waveA : WaveId
  waveB : Option WaveId
  tone  : Tone
  deriving DecidableEq, Repr

/-- A layer as a slot or a voice holds it, its waves resolved to regions (R75, R77). -/
structure LayerCopy where
  waveA : WaveCopy
  waveB : Option WaveCopy
  tone  : Tone
  deriving DecidableEq, Repr

/-- The state of a layer slot, with its voice where one is present (R62). -/
inductive SlotState
  | dormant
  | starved
  | claiming (v : VoiceId)
  | voiced (v : VoiceId)
  deriving DecidableEq, Repr

/-- A layer slot of a note record (R62). -/
structure Slot where
  layer : LayerId
  copy  : LayerCopy
  state : SlotState
  deriving DecidableEq, Repr

/-- A note record (R62). -/
structure NoteRecord where
  tag      : Nat
  number   : Nat
  raised   : Bool
  template : Option TemplateId
  slots    : List Slot
  deriving DecidableEq, Repr

/-- The fields of a chart entry that a lookup hands back (R29). -/
structure CurrentEntry where
  note      : Nat
  regKey    : Option KeyId
  step      : Nat
  breathReg : Bool
  deriving DecidableEq, Repr

/-- A stored chart entry (R27): the keys examined, those that must be pressed, what it gives. -/
structure Entry where
  mask    : Word
  pattern : Word
  gives   : CurrentEntry
  deriving DecidableEq, Repr

/-- What a fingering unit holds (R43). The note state is SOUNDING when `note` is present and SILENT
when it is absent. -/
structure Fingering where
  snapshot     : Word
  changed      : Word
  settle       : Timer
  onsetPending : Bool
  current      : Option CurrentEntry
  note         : Option NoteRecord
  misses       : Nat
  deriving DecidableEq, Repr

/-- The fingering unit after power-on and pin reset (R43). -/
def Fingering.reset : Fingering := ⟨0, 0, .stopped, false, none, none, 0⟩

/-- The calibration in progress (R126, R131). -/
structure Calibration where
  count     : Nat
  breathSum : Nat
  lipSum    : Nat
  minimum   : Option Nat
  maximum   : Option Nat
  deriving DecidableEq, Repr

/-- No sample gathered (R126, R130). -/
def Calibration.fresh : Calibration := ⟨0, 0, 0, none, none⟩

/-- The work a station stalled on a chart edit holds (R39): the rest of a PLAY frame, with the
sequence number its REPLY echoes, or the rest of a settle expiry. -/
inductive StallWork
  | frame (seq : Nat)
  | expiry
  deriving DecidableEq, Repr

/-! ### Breath links -/

/-- The frame kinds a head sends with content or a check (R144). -/
inductive FrameKind
  | hello | play | hush
  deriving DecidableEq, Repr

/-- A frame in assembly: kind, sequence number, expected length, characters gathered, the start
character first (R140). -/
structure FrameAssembly where
  kind     : FrameKind
  seq      : Nat
  expected : Nat
  chars    : List Byte
  deriving DecidableEq, Repr

/-- The content of a complete frame (R146): raw numbers as carried. -/
inductive FrameContent
  | hello (cls keyCount preference : Nat)
  | play (keys : Word) (breath lip : Nat)
  | hush
  deriving DecidableEq, Repr

/-- A complete frame in the frame buffer (R149). -/
structure Frame where
  seq     : Nat
  content : FrameContent
  deriving DecidableEq, Repr

/-- The four characters of a REPLY (R151). -/
structure Reply where
  start  : Byte
  note   : Byte
  status : Byte
  check  : Byte
  deriving DecidableEq, Repr

/-- The reply being sent (R140, R152): its characters, the position of the character in
transmission, the MCLK periods since that character began, the bit time with which the reply began,
and whether it ends after the character in transmission (R136). Time moves the position on (Sending.pass); with its
last character over, the reply waits for REPLY_END with that character's periods full (logs 3 and 18). -/
structure Sending where
  reply    : Reply
  position : Nat
  elapsed  : Nat
  bitTime  : Option Nat
  cut      : Bool
  deriving DecidableEq, Repr

/-- The five link counters (R153). -/
structure LinkCounters where
  missed   : Nat
  stale    : Nat
  framing  : Nat
  check    : Nat
  protocol : Nat
  deriving DecidableEq, Repr

/-- All counters 0. -/
def LinkCounters.zero : LinkCounters := ⟨0, 0, 0, 0, 0⟩

/-- The character in assembly (R140, R141): absent, the line resting at 1; or the MCLK periods since its
falling edge and the bits sampled so far; or, after a stop bit of 0, absent while the receiver waits to
sample a 1, with the periods since its last sample. -/
inductive CharacterAssembly
  | absent
  | assembling (elapsed : Nat) (bits : List Bool)
  | heldLow (elapsed : Nat)
  deriving DecidableEq, Repr

/-- What a link receiver holds (R140). -/
structure Link where
  bitTime    : Option Nat
  character  : CharacterAssembly
  assembly   : Option FrameAssembly
  buffer     : Option Frame
  lastSeq    : Option Nat
  windowOpen : Bool
  silence    : Timer
  sending    : Option Sending
  waiting    : Option Reply
  counters   : LinkCounters
  deriving DecidableEq, Repr

/-- The link receiver after power-on and pin reset (R140). -/
def Link.reset : Link where
  bitTime := none
  character := .absent
  assembly := none
  buffer := none
  lastSeq := none
  windowOpen := true
  silence := .stopped
  sending := none
  waiting := none
  counters := LinkCounters.zero

/-- One station: the engine's state and settings, its breath unit, fingering unit and link
receiver (section 3 of 00_scope.md, R126). -/
structure Station where
  state      : StationState
  settings   : Settings
  keySense   : Vector KeySense 32
  breath     : Breath
  fingering  : Fingering
  cls        : Option Nat
  keyCount   : Nat
  calib      : Calibration
  restarts   : Nat
  stall      : Option StallWork
  syncHanded : Bool
  link       : Link
  deriving DecidableEq, Repr

/-- A station after power-on and pin reset (R126, R43, R45, R140). -/
def Station.reset : Station where
  state := .offline
  settings := Settings.reset
  keySense := Vector.replicate 32 .both
  breath := Breath.reset
  fingering := Fingering.reset
  cls := none
  keyCount := 32
  calib := Calibration.fresh
  restarts := 0
  stall := none
  syncHanded := false
  link := Link.reset

/-! ### Chart store, templates, waves -/

/-- The edit in flight (R25): the chart, the command byte that began it, its work count, and the
list it produces at completion (R37). -/
structure Edit where
  chart  : ChartId
  cmd    : Byte
  work   : Nat
  result : List Entry
  deriving DecidableEq, Repr

/-- The chart store (R25). `lists` are the lists lookups see; `lengths` and `freeCells` take their
new values when an edit is accepted (R31). -/
structure ChartStore where
  lists     : Vector (List Entry) 8
  lengths   : Vector Nat 8
  freeCells : Nat
  edit      : Option Edit
  deriving DecidableEq, Repr

/-- The chart store after power-on (R26). -/
def ChartStore.reset : ChartStore where
  lists := Vector.replicate 8 []
  lengths := Vector.replicate 8 0
  freeCells := 512
  edit := none

/-- The wave memory as byte cells in rising order of address, none of them 0: sample a has its high
byte at 3a, its low byte at 3a + 1 and its parity status at 3a + 2 (log 7). -/
abbrev Memory := List Host.Cell

/-! ### The voice pool and the voice records -/

/-- The five states of a voice, in the order of their codes 0 to 4 (R80). -/
inductive VoiceState
  | free | sounding | releasing | draining | faulted
  deriving DecidableEq, Repr

/-- The slot a voice sounds or last sounded (R80). -/
structure Owner where
  station : StationId
  tag     : Nat
  layer   : LayerId
  deriving DecidableEq, Repr

/-- The glide countdown (R108, R111). `advanced n` is a countdown restarted at n by a GLIDE_STEP
taken ahead of the rest of the voice's step, so that this period's advance is already made
(log 14). -/
inductive Glide
  | stopped
  | running (remaining : Nat)
  | advanced (remaining : Nat)
  deriving DecidableEq, Repr

/-- A voice: the allocator's items (R80) and the renderer's record (R108). The binding of a DRAINING
voice is the claim table entry that names it (R90). -/
structure Voice where
  state         : VoiceState
  owner         : Option Owner
  claimTime     : Word
  releaseStart  : Word
  copy          : Option LayerCopy
  outStation    : Option StationId
  base          : Nat
  target        : Nat
  glide         : Glide
  eff           : Nat
  inc           : Word
  phase         : Word
  amp           : Nat
  ampTarget     : Nat
  completionDue : Bool
  deriving DecidableEq, Repr

/-- A FREE voice: no owner, no copy, and 0 for every item of its record (R80, R108). -/
def Voice.free : Voice where
  state := .free
  owner := none
  claimTime := 0
  releaseStart := 0
  copy := none
  outStation := none
  base := 0
  target := 0
  glide := .stopped
  eff := 0
  inc := 0
  phase := 0
  amp := 0
  ampTarget := 0
  completionDue := false

/-- A claim table entry (R90). -/
structure Claim where
  station : StationId
  tag     : Nat
  layer   : LayerId
  voice   : VoiceId
  deriving DecidableEq, Repr

/-- A starve list entry (R93). -/
structure Starved where
  station : StationId
  tag     : Nat
  layer   : LayerId
  deriving DecidableEq, Repr

/-! ### Audio port, fault capture, control port -/

/-- One station's output samples of a sample period (R118). -/
structure Pair where
  left  : Int
  right : Int
  deriving DecidableEq, Repr

/-- The audio port (R119, R120): each station's clip state, the outputs of the last sample period,
the eight slots of the frame being sent and the frame position. -/
structure Audio where
  clip     : Vector Bool 4
  outputs  : Vector Pair 4
  frame    : Vector Word 8
  position : Nat
  deriving DecidableEq, Repr

/-- The audio port after power-on and pin reset (R119, R120). -/
def Audio.reset : Audio where
  clip := Vector.replicate 4 false
  outputs := Vector.replicate 4 ⟨0, 0⟩
  frame := Vector.replicate 8 0
  position := 0

/-- The ten fault kinds (section 5.7 of 00_scope.md). -/
inductive FaultKind
  | linkFraming | linkProtocol | linkCheck | linkOverrun | linkSilent
  | waveParity | layerStarved | chartMiss | audioClip | portAbort
  deriving DecidableEq, Repr

/-- The first-fault record (R155, R156). -/
structure FaultRecord where
  kind    : FaultKind
  station : Option StationId
  voice   : Option VoiceId
  tag     : Option Nat
  detail  : Word
  time    : Word
  deriving DecidableEq, Repr

/-- The fault capture (R154). In the three sets bit n stands for kind n (R169). -/
structure FaultCapture where
  first  : Option FaultRecord
  flags  : Half
  count  : Half
  enable : Half
  mask   : Half
  deriving DecidableEq, Repr

/-- The fault capture after power-on: empty, all kinds enabled, none masked (R154). -/
def FaultCapture.reset : FaultCapture := ⟨none, 0, 0, 0x07FE, 0⟩

/-- The result codes, in the order of their values 0x00 to 0x09 (R2). -/
inductive ResultCode
  | ok | adjusted | busy | range | full | stale | unknown | notReady | notHeld | inUse
  deriving DecidableEq, Repr

/-- The control port's transaction state (R163) with what it holds: in PARAMETERS the command byte,
the parameter bytes taken and the number expected; in RESPONSE the result code and the response
record; in IGNORE the answer still to be driven (R165). -/
inductive PortPhase
  | idle
  | command
  | parameters (cmd : Byte) (taken : List Byte) (expected : Nat)
  | response (code : ResultCode) (record : List Byte)
  | ignore (answer : Option ResultCode)
  deriving DecidableEq, Repr

/-- The control port (R163, R165): its transaction state, the level of CS_N, and whether it waits to
see CS_N high after a pin reset. -/
structure Port where
  phase     : PortPhase
  csLow     : Bool
  awaitHigh : Bool
  deriving DecidableEq, Repr

/-- The control port after power-on (R163), CS_N high (log 5). -/
def Port.reset : Port := ⟨.idle, false, false⟩

/-! ### The part -/

/-- The whole part, and the queue of commands waiting, first in, first out. `draws` is the model's
own: it numbers the reads that meet values the spec leaves open (log 15). -/
structure State where
  pending      : List Instr
  timebase     : Word
  clearRunning : Bool
  rstAsserted  : Bool
  stations     : Vector Station 4
  charts       : ChartStore
  templates    : Vector (List Layer) 16
  waves        : Vector (Option WaveRegion) 32
  memory       : Memory
  voices       : Vector Voice 32
  freeList     : List VoiceId
  claims       : List Claim
  starve       : List Starved
  tagCounter   : Nat
  audio        : Audio
  faults       : FaultCapture
  port         : Port
  draws        : Nat
  deriving DecidableEq, Repr

/-- The part when power-on ends: every item at its power-on value and the clear of wave memory
running (R1, R3, R4, R25, R43 to R45, R61, R67, R80 to R83, R90, R93, R108, R119, R121, R122, R126,
R140, R154, R163; log 5). A template that is undefined has no layers (R67). -/
def State.reset : State where
  pending := []
  timebase := 0
  clearRunning := true
  rstAsserted := false
  stations := Vector.replicate 4 Station.reset
  charts := ChartStore.reset
  templates := Vector.replicate 16 []
  waves := Vector.replicate 32 none
  memory := []
  voices := Vector.replicate 32 Voice.free
  freeList := List.finRange 32
  claims := []
  starve := []
  tagCounter := 1
  audio := Audio.reset
  faults := FaultCapture.reset
  port := Port.reset
  draws := 0

end Sys2Proof.Machine
end

