-- ==== Sys2Proof/Machine/Ops.lean ====
section
/-! DEFINITION. The shared operations: access to the state's parts, wave memory, fault reports, the
control port's acceptance of a command, byte order. -/

namespace Sys2Proof.Machine

/-! ### Stations, voices and stores -/

/-- Station i. -/
def State.station (s : State) (i : StationId) : Station := s.stations[i]

/-- s with station i changed by f. -/
def State.updStation (s : State) (i : StationId) (f : Station → Station) : State :=
  { s with stations := s.stations.set i (f s.stations[i]) }

/-- s with station i's breath unit changed by f. -/
def State.updBreath (s : State) (i : StationId) (f : Breath → Breath) : State :=
  s.updStation i fun x => { x with breath := f x.breath }

/-- s with station i's fingering unit changed by f. -/
def State.updFingering (s : State) (i : StationId) (f : Fingering → Fingering) : State :=
  s.updStation i fun x => { x with fingering := f x.fingering }

/-- s with station i's link receiver changed by f. -/
def State.updLink (s : State) (i : StationId) (f : Link → Link) : State :=
  s.updStation i fun x => { x with link := f x.link }

/-- s with station i's link counters changed by f. -/
def State.updCounters (s : State) (i : StationId) (f : LinkCounters → LinkCounters) : State :=
  s.updLink i fun l => { l with counters := f l.counters }

/-- The note record of station i, present while it is SOUNDING (R62). -/
def State.note (s : State) (i : StationId) : Option NoteRecord := (s.station i).fingering.note

/-- s with the note record of station i, if there is one, changed by f. -/
def State.updNote (s : State) (i : StationId) (f : NoteRecord → NoteRecord) : State :=
  s.updFingering i fun g => { g with note := g.note.map f }

/-- Voice v. -/
def State.voice (s : State) (v : VoiceId) : Voice := s.voices[v]

/-- s with voice v changed by f. -/
def State.updVoice (s : State) (v : VoiceId) (f : Voice → Voice) : State :=
  { s with voices := s.voices.set v (f s.voices[v]) }

/-- V0 to V31 in rising order. -/
def allVoices : List VoiceId := List.finRange 32

/-- S0 to S3 in rising order. -/
def allStations : List StationId := List.finRange 4

/-- The number a byte names as one of n things, or none where it names none of them. -/
def nameOf (n : Nat) (b : Byte) : Option (Fin n) :=
  if h : b.toNat < n then some ⟨b.toNat, h⟩ else none

/-- The members of `first` in their order, each once, then the others of `all` in theirs (log 12). -/
def inOrder {n : Nat} (first all : List (Fin n)) : List (Fin n) :=
  first.reverse.foldl (fun acc x => x :: acc.filter (· ≠ x)) all

/-- s with the clip state of station i showing unsaturated (R119). -/
def State.unclip (s : State) (i : StationId) : State :=
  { s with audio := { s.audio with clip := s.audio.clip.set i false } }

/-! ### Numbers -/

/-- x brought to the nearer end of lo..hi (R166). -/
def clampInt (lo hi x : Int) : Int := max lo (min hi x)

/-- A counter of n that stays at its top value (R52, R131, R153). -/
def saturate (top n : Nat) : Nat := min top n

/-- A pitch value brought into 0..8191 (R110, R112). -/
def clampPitch (p : Int) : Nat := (clampInt 0 8191 p).toNat

/-! ### Byte order of the control port: most significant byte first (section 5.5 of 00_scope.md) -/

/-- One byte of value n. -/
def be8 (n : Nat) : List Byte := [BitVec.ofNat 8 n]

/-- Two bytes of value n, most significant first. -/
def be16 (n : Nat) : List Byte := [BitVec.ofNat 8 (n / 256), BitVec.ofNat 8 n]

/-- Four bytes of value n, most significant first. -/
def be32 (n : Nat) : List Byte :=
  [BitVec.ofNat 8 (n / 16777216), BitVec.ofNat 8 (n / 65536), BitVec.ofNat 8 (n / 256),
   BitVec.ofNat 8 n]

/-- A signed value in one byte, two's complement (section 10.3 of 10_control_port_and_formats.md). -/
def signed8 (x : Int) : List Byte := [BitVec.ofInt 8 x]

/-- A signed value in two bytes, two's complement, most significant first. -/
def signed16 (x : Int) : List Byte := be16 (BitVec.ofInt 16 x).toNat

/-- A flag in one byte: 1 set, 0 clear. -/
def flag8 (b : Bool) : List Byte := be8 (if b then 1 else 0)

/-- A number that may be absent, 0xFF where it is (section 10.3). -/
def orFF {n : Nat} (x : Option (Fin n)) : List Byte := be8 (x.elim 0xFF Fin.val)

/-- Exactly n bytes: those of l, then `fill` in the places beyond them (R167). -/
def padTo (n : Nat) (fill : Byte) (l : List Byte) : List Byte :=
  (l ++ List.replicate n fill).take n

/-! ### Wave memory (R121, log 7) -/

/-- What a cell that is not listed reads as: the clear of power-on leaves every sample 0 with good
parity (R121). -/
def Memory.unlisted : Byte := 0

/-- The number of byte cells: three for each of the 65,536 samples. -/
def Memory.cells : Nat := 196608

/-- The cell at address a. -/
def Memory.readCell : Memory → Nat → Byte
  | [], _ => unlisted
  | (b, x) :: m, a => if b = a then x else readCell m a

/-- m with value x at address a, in canonical form again. -/
def Memory.writeCell : Memory → Nat → Byte → Memory
  | [], a, x => if x = unlisted then [] else [(a, x)]
  | (b, y) :: m, a, x =>
    if a < b then (if x = unlisted then (b, y) :: m else (a, x) :: (b, y) :: m)
    else if a = b then (if x = unlisted then m else (a, x) :: m)
    else (b, y) :: writeCell m a x

/-- The canonical form above address lo: addresses rising, below the memory's end, and no entry that
reads as an unlisted cell does. -/
def Memory.wfFrom : Nat → Memory → Bool
  | _, [] => true
  | lo, (a, x) :: m => decide (lo ≤ a ∧ a < cells) && (x != unlisted) && wfFrom (a + 1) m

/-- The canonical form of the wave memory. -/
def Memory.wf (m : Memory) : Bool := wfFrom 0 m

/-- The sample stored at sample address a, as 16 bits. -/
def Memory.sampleBits (m : Memory) (a : Nat) : Half :=
  m.readCell (3 * a) ++ m.readCell (3 * a + 1)

/-- The sample stored at sample address a, −32,768 to 32,767 (R114). -/
def Memory.sample (m : Memory) (a : Nat) : Int := (m.sampleBits a).toInt

/-- Whether the parity stored with the sample at address a disagrees with it (R117). -/
def Memory.parityFailed (m : Memory) (a : Nat) : Bool := m.readCell (3 * a + 2) != 0

/-- m with a sample stored at address a with fresh parity (R124). -/
def Memory.writeSample (m : Memory) (a : Nat) (x : Half) : Memory :=
  ((m.writeCell (3 * a) (x.extractLsb' 8 8)).writeCell (3 * a + 1) (x.extractLsb' 0 8)).writeCell
    (3 * a + 2) 0

/-- m with a run of samples stored from address a on, each with fresh parity (R124). -/
def Memory.writeRun (m : Memory) (a : Nat) : List Half → Memory
  | [] => m
  | x :: xs => (m.writeSample a x).writeRun (a + 1) xs

/-! ### Faults (R156, R158) -/

/-- The number of a fault kind (section 5.7 of 00_scope.md). -/
def FaultKind.number : FaultKind → Nat
  | .linkFraming => 1
  | .linkProtocol => 2
  | .linkCheck => 3
  | .linkOverrun => 4
  | .linkSilent => 5
  | .waveParity => 6
  | .layerStarved => 7
  | .chartMiss => 8
  | .audioClip => 9
  | .portAbort => 10

/-- The set that holds one kind alone (R169). -/
def FaultKind.bit (k : FaultKind) : Half := 1#16 <<< k.number

/-- Whether a kind is enabled at the fault capture (R154). -/
def FaultCapture.enabled (f : FaultCapture) (k : FaultKind) : Bool := f.enable.getLsbD k.number

/-- How the capture takes a report (R156): a disabled kind is not counted and not recorded; an
enabled one counts, and fills the empty first-fault record or sets its kind's flag. -/
def FaultCapture.take (f : FaultCapture) (r : FaultRecord) : FaultCapture :=
  if f.enabled r.kind then
    match f.first with
    | none => { f with count := f.count + 1, first := some r }
    | some _ => { f with count := f.count + 1, flags := f.flags ||| r.kind.bit }
  else f

/-- Whether ALERT_N is asserted (R158): the record is valid and of an unmasked kind, or the flag of
an unmasked kind is set. -/
def FaultCapture.alert (f : FaultCapture) : Bool :=
  (match f.first with
    | some r => !f.mask.getLsbD r.kind.number
    | none => false)
  || (f.flags &&& ~~~f.mask) != 0

/-- A block reports a fault, stamped with the timebase (R155, R156). The bits of a detail that R169 names
nothing for are 0 (log 34). -/
def report (s : State) (kind : FaultKind) (station : Option StationId) (voice : Option VoiceId)
    (tag : Option Nat) (detail : Word) : State :=
  { s with faults := s.faults.take ⟨kind, station, voice, tag, detail, s.timebase⟩ }

/-! ### The control port (R163, R164) -/

/-- The number of parameter bytes expected once byte b follows those taken: WAVE_WRITE's count byte n,
1 to 64, makes it 3 + 2n (R163). -/
def expectedAfter (cmd : Byte) (taken : List Byte) (expected : Nat) (b : Byte) : Nat :=
  if cmd = 0x31 ∧ taken.length = 2 then 3 + 2 * Instr.samplesFor b else expected

/-- Whether the command with these parameter bytes can be accepted at the port now: the port is in
COMMAND, the power-on clear over, or in PARAMETERS of the same command with the first of its bytes
taken and the last not (R163, R165; log 4). -/
def takesCommand (s : State) (cmd : Byte) (params : List Byte) : Bool :=
  match s.port.phase with
  | .command => !s.clearRunning
  | .parameters c taken _ =>
    c == cmd && taken == params.take taken.length && decide (taken.length < params.length)
  | _ => false

/-- What a command's own rule makes of it: the result code, the response record, the state. -/
structure Answer where
  code   : ResultCode
  record : List Byte
  state  : State

/-- A refusal: the code, no record, nothing changed (R166). -/
def refuse (s : State) (code : ResultCode) : Answer := ⟨code, [], s⟩

/-- s with the port about to drive a result code and then a response record (R164). -/
def State.answered (s : State) (code : ResultCode) (record : List Byte) : State :=
  { s with port := { s.port with phase := .response code record } }

/-- The acceptance of a command (R164): tested and taking effect in one event, its result code and
record then the port's to drive. Where the port cannot take the command now, nothing happens
(log 2). -/
def accept (s : State) (cmd : Byte) (params : List Byte) (effect : State → Answer) :
    Host.Outcome State Fault Refusal :=
  if takesCommand s cmd params then
    .next ((effect s).state.answered (effect s).code (effect s).record)
  else .next s

/-- The result for a command that was carried out: ADJUSTED when a field was clamped (R166). -/
def okOr (adjusted : Bool) : ResultCode := if adjusted then .adjusted else .ok

/-- The value of a result code on the wire (R2). -/
def ResultCode.value : ResultCode → Byte
  | .ok => 0x00
  | .adjusted => 0x01
  | .busy => 0x02
  | .range => 0x03
  | .full => 0x04
  | .stale => 0x05
  | .unknown => 0x06
  | .notReady => 0x07
  | .notHeld => 0x08
  | .inUse => 0x09

/-- The result code and record bytes that the port has still to drive, before the 0xFF of Port.misoByte; none
where MISO is high impedance (R163, R164, R165). -/
def Port.miso (p : Port) : Option (List Byte) :=
  match p.phase with
  | .idle => none
  | .command => some []
  | .parameters _ _ _ => some []
  | .response code record => some (code.value :: record)
  | .ignore answer => some (answer.elim [] fun c => [c.value])

/-- The n-th byte that the port drives on MISO from here on, none where MISO is high impedance: 0xFF in COMMAND
and PARAMETERS, after the record in RESPONSE, and after the answer, if one is still to be driven, in IGNORE
(R163). -/
def Port.misoByte (p : Port) (n : Nat) : Option Byte := p.miso.map fun l => l.getD n 0xFF

/-- The level of MISO in the n-th bit time from here on, none where it is high impedance: bytes travel most
significant bit first (R163). -/
def Port.misoLevel (p : Port) (n : Nat) : Option Bool :=
  (p.misoByte (n / 8)).map fun b => b.getMsbD (n % 8)

/-- The byte that the levels of MOSI at eight rising edges of SCLK carry, most significant bit first (R163). -/
def byteOfLevels (levels : List Bool) : Byte :=
  levels.foldl (fun b level => (b.concat level).setWidth 8) 0

/-! ### Free values -/

/-- s with the next event that meets a free value numbered anew (log 15). -/
def nextDraw (s : State) : State := { s with draws := s.draws + 1 }

/-! ### Timers -/

/-- A timer counts down by one sample period and expires at 0 (R48, R150). -/
def Timer.tick : Timer → Timer
  | .stopped => .stopped
  | .running n => if n ≤ 1 then .expired else .running (n - 1)
  | .expired => .expired

/-- A settle timer is pending until its expiry is taken (R43, R50; log 17). -/
def Timer.pending (t : Timer) : Bool := t != .stopped

/-- n MCLK periods go by for a reply being sent (R152): each of its characters takes eleven bit times, the next
beginning where one ends, up to the last that is sent, whose end the row REPLY_END then takes (logs 3 and 18). -/
def Sending.pass (n : Nat) (x : Sending) : Sending :=
  match x.bitTime with
  | none => x
  | some T =>
    let ended := min (if x.cut then 0 else 3 - x.position) ((x.elapsed + n) / (11 * T))
    { x with
      position := x.position + ended
      elapsed := min (11 * T) (x.elapsed + n - ended * (11 * T)) }

/-- n MCLK periods go by for a station's reply transmitter. -/
def Station.passPeriods (n : Nat) (x : Station) : Station :=
  { x with link := { x.link with sending := x.link.sending.map (Sending.pass n) } }

end Sys2Proof.Machine
end

