-- ==== Sys2Proof/Machine/Operands.lean ====
section
/-! DEFINITION. The parameter records of the control port: their bytes on the wire (R169), and the
stored values they become under the clamps (R4, R28, R44, R70, R83, R109, R127). -/

namespace Sys2Proof.Machine

/-! ### Chart entries (R27, R28) -/

/-- The 12 bytes of a chart entry as carried (R169). -/
def entryParamBytes (e : EntryParams) : List Byte :=
  be32 e.mask.toNat ++ be32 e.pattern.toNat ++ [e.note, e.regKey, e.step, e.breathReg]

/-- Whether an entry meets a refusal of R28: a pattern key outside the mask, or a register key that
names neither a key nor absent. -/
def entryRefused (e : EntryParams) : Bool :=
  (e.pattern &&& ~~~e.mask) != 0 || (decide (31 < e.regKey.toNat) && e.regKey != 0xFF)

/-- The entry stored for one as carried (R28). -/
def entryOf (e : EntryParams) : Entry where
  mask := e.mask
  pattern := e.pattern
  gives :=
    { note := min 127 e.note.toNat
      regKey := nameOf 32 e.regKey
      step := min 24 e.step.toNat
      breathReg := e.breathReg != 0 }

/-- The 12 bytes of a stored entry (R41, R169). -/
def entryBytes (e : Entry) : List Byte :=
  be32 e.mask.toNat ++ be32 e.pattern.toNat ++ be8 e.gives.note ++ orFF e.gives.regKey
    ++ be8 e.gives.step ++ flag8 e.gives.breathReg

/-- Whether a field of the entry is clamped (R28): its stored bytes differ from those carried. -/
def entryClamped (e : EntryParams) : Bool := entryBytes (entryOf e) != entryParamBytes e

/-! ### Template layers (R68, R70) -/

/-- The 12 bytes of a layer as carried (R169). -/
def layerParamBytes (l : LayerParams) : List Byte :=
  [l.waveA, l.waveB, l.transpose, l.fine, l.level, l.pan, l.cond, l.sense]
    ++ be16 l.attack.toNat ++ be16 l.release.toNat

/-- The wave B reference carried: absent, a wave number, or neither (R69 test 4). -/
def waveBOf (b : Byte) : Option (Option WaveId) :=
  if b = 0xFF then some none else (nameOf 32 b).map some

/-- The fields other than the waves, brought into their ranges (R70). -/
def toneOf (l : LayerParams) : Tone where
  transpose := clampInt (-48) 48 l.transpose.toInt
  fine := clampInt (-63) 63 l.fine.toInt
  level := l.level.toNat
  pan := min 128 l.pan.toNat
  mask := l.cond.extractLsb' 0 4
  sense := if l.sense = 0 then .any else .noneOf
  attack := max 1 (min 4095 l.attack.toNat)
  release := max 1 (min 4095 l.release.toNat)

/-- The layer a record defines, when its wave fields name waves (R69, R70). -/
def layerOf (l : LayerParams) : Option Layer := do
  let a ← nameOf 32 l.waveA
  let b ← waveBOf l.waveB
  return ⟨a, b, toneOf l⟩

/-- The code of a condition sense (R70, section 10.3). -/
def CondSense.code : CondSense → Nat
  | .any => 0
  | .noneOf => 1

/-- The last ten bytes of a layer record: the fields other than the waves. -/
def toneBytes (t : Tone) : List Byte :=
  signed8 t.transpose ++ signed8 t.fine ++ be8 t.level ++ be8 t.pan ++ be8 t.mask.toNat
    ++ be8 t.sense.code ++ be16 t.attack ++ be16 t.release

/-- The 12 bytes of a stored layer (R73, R169). -/
def layerBytes (l : Layer) : List Byte := be8 l.waveA.val ++ orFF l.waveB ++ toneBytes l.tone

/-- Whether a field of the layer is adjusted (R70): its stored bytes differ from those carried. -/
def layerAdjusted (l : LayerParams) : Bool :=
  toneBytes (toneOf l) != (layerParamBytes l).drop 2

/-! ### Station settings (R4, R44, R83, R109, R127) -/

/-- The 26 setting bytes of STATION_SET as carried, after the station byte (R169). -/
def settingParamBytes (p : StationSetParams) : List Byte :=
  [p.enable, p.follow] ++ be16 p.spread.toNat
    ++ [p.template, p.chart, p.settle, p.mode, p.glide]
    ++ be16 p.threshold.toNat ++ [p.gain, p.curve] ++ be16 p.ceiling.toNat
    ++ be16 p.overblow.toNat ++ [p.hysteresis, p.deadZone, p.bendGain]
    ++ be16 p.bendRange.toNat ++ [p.reserve, p.cap, p.transpose, p.outGain]

/-- The 27 parameter bytes of STATION_SET (R169). -/
def stationSetBytes (p : StationSetParams) : List Byte := p.station :: settingParamBytes p

/-- The settings stored for a STATION_SET that names this template and this chart: each field
brought within its range, and the cap raised to the reserve (R4, R44, R83, R109, R127). -/
def settingsOf (p : StationSetParams) (template : TemplateId) (chart : ChartId) : Settings where
  enable := p.enable != 0
  follow := p.follow != 0
  spread := min 1023 p.spread.toNat
  template := template
  chart := chart
  settle := min 63 p.settle.toNat
  mode := if p.mode = 0 then .legato else .retrigger
  glide := p.glide.toNat
  threshold := min 1023 p.threshold.toNat
  gain := p.gain.toNat
  curve := if p.curve = 0 then .root else .linear
  ceiling := max 1 (min 1023 p.ceiling.toNat)
  overblow := min 1023 p.overblow.toNat
  hysteresis := p.hysteresis.toNat
  deadZone := p.deadZone.toNat
  bendGain := p.bendGain.toNat
  bendRange := min 768 p.bendRange.toNat
  reserve := p.reserve.toNat
  cap := max p.reserve.toNat (max 1 (min 32 p.cap.toNat))
  transpose := clampInt (-48) 48 p.transpose.toInt
  outGain := p.outGain.toNat

/-- The code of a note mode (R44). -/
def NoteMode.code : NoteMode → Nat
  | .legato => 0
  | .retrigger => 1

/-- The code of a curve (R4). -/
def Curve.code : Curve → Nat
  | .root => 0
  | .linear => 1

/-- The 26 setting bytes as stored (R139, R169). -/
def settingBytes (c : Settings) : List Byte :=
  flag8 c.enable ++ flag8 c.follow ++ be16 c.spread ++ be8 c.template.val ++ be8 c.chart.val
    ++ be8 c.settle ++ be8 c.mode.code ++ be8 c.glide ++ be16 c.threshold ++ be8 c.gain
    ++ be8 c.curve.code ++ be16 c.ceiling ++ be16 c.overblow ++ be8 c.hysteresis
    ++ be8 c.deadZone ++ be8 c.bendGain ++ be16 c.bendRange ++ be8 c.reserve ++ be8 c.cap
    ++ signed8 c.transpose ++ be8 c.outGain

/-- Whether any setting was clamped (R128): the stored bytes differ from those carried. -/
def settingsClamped (p : StationSetParams) (c : Settings) : Bool :=
  settingBytes c != settingParamBytes p

/-! ### Key senses (R45, R169) -/

/-- The sense a two-bit code names. -/
def senseOf (code : Nat) : KeySense :=
  match code with
  | 0 => .ignore
  | 1 => .press
  | 2 => .release
  | _ => .both

/-- The table that 8 bytes carry: key 4m + j in bits 2j + 1 to 2j of byte m + 1 (R169). -/
def senseTable (bytes : Vector Byte 8) : Vector KeySense 32 :=
  Vector.ofFn fun k : Fin 32 =>
    senseOf (bytes[k.val / 4].toNat / 4 ^ (k.val % 4) % 4)

/-- Whether a sense covers a press (R45). -/
def KeySense.coversPress : KeySense → Bool
  | .ignore | .release => false
  | .press | .both => true

/-- Whether a sense covers a release (R45). -/
def KeySense.coversRelease : KeySense → Bool
  | .ignore | .press => false
  | .release | .both => true

/-! ### Port commands as bytes (R166, R169) -/

/-- The parameter bytes of WAVE_WRITE: start, count, samples (R169). -/
def waveWriteBytes (start : Half) (count : Byte) (samples : List Half) : List Byte :=
  be16 start.toNat ++ (count :: samples.flatMap fun x => be16 x.toNat)

/-- The parameter bytes of TEMPLATE_SET: template, layer count, three layer records (R169). -/
def templateSetBytes (template count : Byte) (l0 l1 l2 : LayerParams) : List Byte :=
  template :: count :: (layerParamBytes l0 ++ layerParamBytes l1 ++ layerParamBytes l2)

/-- The command byte of a control-port command and its parameter bytes as they travel; none for an
event (R166, R169). -/
def wireOf : Instr → Option (Byte × List Byte)
  | .statusRead => some (0x01, [])
  | .stationRead station clear => some (0x02, [station, clear])
  | .stationSet p => some (0x03, stationSetBytes p)
  | .keysenseSet station senses => some (0x04, station :: senses.toList)
  | .stationRestart station => some (0x05, [station])
  | .panic => some (0x06, [])
  | .chartRead chart pos => some (0x10, [chart, pos])
  | .chartAppend chart e => some (0x11, chart :: entryParamBytes e)
  | .chartInsert chart pos e => some (0x12, chart :: pos :: entryParamBytes e)
  | .chartReplace chart pos e => some (0x13, chart :: pos :: entryParamBytes e)
  | .chartRemove chart pos => some (0x14, [chart, pos])
  | .chartClear chart => some (0x15, [chart])
  | .chartInfo => some (0x16, [])
  | .templateSet template count l0 l1 l2 =>
    some (0x20, templateSetBytes template count l0 l1 l2)
  | .templateRead template => some (0x21, [template])
  | .templateClear template => some (0x22, [template])
  | .waveDefine wave start k => some (0x30, wave :: (be16 start.toNat ++ [k]))
  | .waveWrite start count samples => some (0x31, waveWriteBytes start count samples)
  | .waveRead start count => some (0x32, be16 start.toNat ++ [count])
  | .waveDelete wave => some (0x33, [wave])
  | .voiceRead voice => some (0x40, [voice])
  | .faultRead => some (0x50, [])
  | .faultClear count => some (0x51, be16 count.toNat)
  | .voiceRetire voice => some (0x52, [voice])
  | .faultPolicy enable mask => some (0x53, be16 enable.toNat ++ be16 mask.toNat)
  | .powerOn | .powerOnClearEnd | .pinReset | .transactionBegin | .transactionEnd
  | .unknownCommandByte _ | .editCompletion _ | .character _ _ _ _ _ | .sync _ _ _
  | .syncTaken _ | .hello _ | .play _ | .hush _ | .replyEnd _ | .settleExpiry _
  | .silenceTimeout _ | .samplePeriod _ _ | .glideStep _ | .releaseCompletion _
  | .orphanDrainCompletion _ | .drainCompletion _ | .pinResetRelease | .parameterByte _
  | .notReady _ | .responseEnd => none

/-- Whether the port can take a command of the wire now (R163, R165). -/
def portTakes (s : State) (c : Instr) : Bool :=
  match wireOf c with
  | some (cmd, bytes) => takesCommand s cmd bytes
  | none => false

end Sys2Proof.Machine
end

