-- ==== Sys2Proof/Machine/Charts.lean ====
section
/-! DEFINITION. The chart store (chapter 2): lookup, the edit in flight, and the chart commands. -/

namespace Sys2Proof.Machine

/-! ### Lookup (R29) -/

/-- An entry fits a snapshot: every key of its pattern pressed, every key of its mask outside the
pattern released (R29). -/
def Entry.fits (e : Entry) (snapshot : Word) : Bool :=
  (snapshot &&& e.pattern) == e.pattern && (snapshot &&& (e.mask &&& ~~~e.pattern)) == 0

/-- The first entry that fits, or a miss (R29). -/
def lookup (l : List Entry) (snapshot : Word) : Option CurrentEntry :=
  (l.find? fun e => e.fits snapshot).map Entry.gives

/-- Whether chart c has an edit in flight (R25, R39). -/
def ChartStore.busy (x : ChartStore) (c : ChartId) : Bool :=
  match x.edit with
  | some e => e.chart == c
  | none => false

/-! ### The edit in flight (R31, R37) -/

/-- An accepted edit of chart c goes in flight: its length and the free-cell count take the values the
edit produces, the list that lookups see does not change yet (R31). -/
def ChartStore.putInFlight (x : ChartStore) (c : ChartId) (cmd : Byte) (work : Nat)
    (result : List Entry) : ChartStore :=
  { x with
    lengths := x.lengths.set c result.length
    freeCells := x.freeCells + x.lengths[c] - result.length
    edit := some ⟨c, cmd, work, result⟩ }

/-- The edit in flight completes: the chart's list becomes the one it produces (R37). -/
def ChartStore.complete (x : ChartStore) : ChartStore :=
  match x.edit with
  | some e => { x with lists := x.lists.set e.chart e.result, edit := none }
  | none => x

/-- The edit in flight is abandoned: length and free-cell count return to their values from before it
(R26). -/
def ChartStore.abandon (x : ChartStore) : ChartStore :=
  match x.edit with
  | some e =>
    { x with
      lengths := x.lengths.set e.chart x.lists[e.chart].length
      freeCells := x.freeCells + x.lengths[e.chart] - x.lists[e.chart].length
      edit := none }
  | none => x

/-- The tests of R31 in their order and the acceptance of an edit. `posOk` is the position test and
`work` the work count, of the chart's length n before the command; `grows` says that the command adds
an entry. -/
def editCommand (s : State) (cmd chart : Byte) (posOk : Nat → Bool)
    (entryRefused grows clamped : Bool) (work : Nat → Nat) (edit : List Entry → List Entry) :
    Answer :=
  if s.charts.edit.isSome then refuse s .busy
  else
    match nameOf 8 chart with
    | none => refuse s .range
    | some c =>
      let n := s.charts.lengths[c]
      if !posOk n then refuse s .range
      else if entryRefused then refuse s .range
      else if grows && (decide (128 ≤ n) || s.charts.freeCells == 0) then refuse s .full
      else
        ⟨okOr clamped, [],
          { s with charts := s.charts.putInFlight c cmd (work n) (edit s.charts.lists[c]) }⟩

/-! ### The chart commands -/

/-- CHART_APPEND (R32). -/
def chartAppendAnswer (chart : Byte) (e : EntryParams) (s : State) : Answer :=
  editCommand s 0x11 chart (fun _ => true) (entryRefused e) true (entryClamped e) (fun _ => 1)
    (fun l => l ++ [entryOf e])

/-- CHART_INSERT (R33). -/
def chartInsertAnswer (chart pos : Byte) (e : EntryParams) (s : State) : Answer :=
  editCommand s 0x12 chart (fun n => decide (pos.toNat ≤ n)) (entryRefused e) true (entryClamped e)
    (fun n => n - pos.toNat + 1) (fun l => l.take pos.toNat ++ entryOf e :: l.drop pos.toNat)

/-- CHART_REPLACE (R34). -/
def chartReplaceAnswer (chart pos : Byte) (e : EntryParams) (s : State) : Answer :=
  editCommand s 0x13 chart (fun n => decide (pos.toNat < n)) (entryRefused e) false
    (entryClamped e) (fun _ => 1) (fun l => l.set pos.toNat (entryOf e))

/-- CHART_REMOVE (R35). -/
def chartRemoveAnswer (chart pos : Byte) (s : State) : Answer :=
  editCommand s 0x14 chart (fun n => decide (pos.toNat < n)) false false false
    (fun n => n - pos.toNat) (fun l => l.eraseIdx pos.toNat)

/-- CHART_CLEAR (R36): the work count of an empty chart is 1. -/
def chartClearAnswer (chart : Byte) (s : State) : Answer :=
  editCommand s 0x15 chart (fun _ => true) false false false (fun n => max 1 n) (fun _ => [])

/-- CHART_READ (R41). -/
def chartReadAnswer (chart pos : Byte) (s : State) : Answer :=
  if s.charts.edit.isSome then refuse s .busy
  else
    match nameOf 8 chart with
    | none => refuse s .range
    | some c =>
      match s.charts.lists[c][pos.toNat]? with
      | none => refuse s .range
      | some e => ⟨.ok, be8 s.charts.lengths[c] ++ entryBytes e, s⟩

/-- The 12 bytes of CHART_INFO: the lengths, the free-cell count, the chart under edit and the
command that began the edit (R42, R169). -/
def chartInfoRecord (x : ChartStore) : List Byte :=
  x.lengths.toList.flatMap be8 ++ be16 x.freeCells
    ++ (match x.edit with
      | some e => be8 e.chart.val ++ [e.cmd]
      | none => [0xFF, 0x00])

/-- CHART_INFO (R42). -/
def chartInfoAnswer (s : State) : Answer := ⟨.ok, chartInfoRecord s.charts, s⟩

/-- The meaning of CHART_READ (R41). -/
def execChartRead (chart pos : Byte) (s : State) : Host.Outcome State Fault Refusal :=
  accept s 0x10 [chart, pos] (chartReadAnswer chart pos)

/-- The meaning of CHART_APPEND (R31, R32). -/
def execChartAppend (chart : Byte) (e : EntryParams) (s : State) :
    Host.Outcome State Fault Refusal :=
  accept s 0x11 (chart :: entryParamBytes e) (chartAppendAnswer chart e)

/-- The meaning of CHART_INSERT (R31, R33). -/
def execChartInsert (chart pos : Byte) (e : EntryParams) (s : State) :
    Host.Outcome State Fault Refusal :=
  accept s 0x12 (chart :: pos :: entryParamBytes e) (chartInsertAnswer chart pos e)

/-- The meaning of CHART_REPLACE (R31, R34). -/
def execChartReplace (chart pos : Byte) (e : EntryParams) (s : State) :
    Host.Outcome State Fault Refusal :=
  accept s 0x13 (chart :: pos :: entryParamBytes e) (chartReplaceAnswer chart pos e)

/-- The meaning of CHART_REMOVE (R31, R35). -/
def execChartRemove (chart pos : Byte) (s : State) : Host.Outcome State Fault Refusal :=
  accept s 0x14 [chart, pos] (chartRemoveAnswer chart pos)

/-- The meaning of CHART_CLEAR (R31, R36). -/
def execChartClear (chart : Byte) (s : State) : Host.Outcome State Fault Refusal :=
  accept s 0x15 [chart] (chartClearAnswer chart)

/-- The meaning of CHART_INFO (R42). -/
def execChartInfo (s : State) : Host.Outcome State Fault Refusal :=
  accept s 0x16 [] chartInfoAnswer

end Sys2Proof.Machine
end

