-- ==== Sys2Proof/Machine/Tuning.lean ====
section
/-! DEFINITION. The tuning table K of the renderer (R112): 768 entries, K[s] the integer nearest to
2^42 × 8.175798915643707 × 2^(s/768) / 48,000, in 16 rows of 48. That each entry is that integer is
checked in Sys2Proof/Laws/Tuning.lean. -/

namespace Sys2Proof.Machine

/-- K[0] to K[47]. -/
def tuningRow0 : List Nat :=
  [749115498, 749791906, 750468925, 751146556, 751824798, 752503653,
   753183121, 753863202, 754543898, 755225208, 755907133, 756589674,
   757272831, 757956605, 758640996, 759326006, 760011634, 760697881,
   761384747, 762072234, 762760342, 763449071, 764138422, 764828395,
   765518991, 766210211, 766902055, 767594524, 768287618, 768981338,
   769675684, 770370657, 771066257, 771762486, 772459344, 773156830,
   773854947, 774553693, 775253071, 775953080, 776653721, 777354995,
   778056902, 778759443, 779462618, 780166429, 780870874, 781575956]

/-- K[48] to K[95]. -/
def tuningRow1 : List Nat :=
  [782281674, 782988030, 783695023, 784402655, 785110926, 785819836,
   786529387, 787239578, 787950410, 788661884, 789374001, 790086760,
   790800163, 791514211, 792228903, 792944240, 793660223, 794376853,
   795094130, 795812055, 796530627, 797249849, 797969720, 798690241,
   799411413, 800133235, 800855710, 801578837, 802302617, 803027050,
   803752137, 804477880, 805204277, 805931331, 806659040, 807387407,
   808116432, 808846115, 809576457, 810307458, 811039119, 811771441,
   812504424, 813238069, 813972377, 814707347, 815442981, 816179280]

/-- K[96] to K[143]. -/
def tuningRow2 : List Nat :=
  [816916243, 817653872, 818392166, 819131128, 819870756, 820611053,
   821352017, 822093651, 822835955, 823578929, 824322573, 825066890,
   825811878, 826557539, 827303873, 828050881, 828798563, 829546921,
   830295955, 831045664, 831796051, 832547115, 833298858, 834051279,
   834804379, 835558160, 836312621, 837067764, 837823588, 838580095,
   839337285, 840095158, 840853716, 841612959, 842372887, 843133502,
   843894803, 844656792, 845419469, 846182834, 846946889, 847711633,
   848477068, 849243195, 850010013, 850777523, 851545727, 852314624]

/-- K[144] to K[191]. -/
def tuningRow3 : List Nat :=
  [853084215, 853854501, 854625483, 855397161, 856169536, 856942608,
   857716378, 858490847, 859266015, 860041883, 860818452, 861595721,
   862373693, 863152367, 863931744, 864711825, 865492611, 866274101,
   867056297, 867839199, 868622808, 869407125, 870192150, 870977884,
   871764327, 872551480, 873339344, 874127920, 874917207, 875707208,
   876497921, 877289349, 878081491, 878874348, 879667921, 880462211,
   881257218, 882052943, 882849386, 883646549, 884444431, 885243034,
   886042358, 886842403, 887643171, 888444662, 889246877, 890049816]

/-- K[192] to K[239]. -/
def tuningRow4 : List Nat :=
  [890853480, 891657870, 892462986, 893268829, 894075399, 894882698,
   895690726, 896499484, 897308972, 898119190, 898930140, 899741823,
   900554238, 901367387, 902181271, 902995889, 903811242, 904627332,
   905444159, 906261723, 907080026, 907899067, 908718848, 909539369,
   910360631, 911182635, 912005380, 912828869, 913653101, 914478078,
   915303799, 916130266, 916957479, 917785440, 918614147, 919443603,
   920273808, 921104763, 921936468, 922768924, 923602131, 924436091,
   925270804, 926106271, 926942492, 927779468, 928617200, 929455688]

/-- K[240] to K[287]. -/
def tuningRow5 : List Nat :=
  [930294933, 931134936, 931975698, 932817219, 933659499, 934502540,
   935346343, 936190907, 937036234, 937882324, 938729178, 939576797,
   940425181, 941274331, 942124248, 942974932, 943826385, 944678606,
   945531597, 946385357, 947239889, 948095193, 948951268, 949808117,
   950665740, 951524136, 952383308, 953243256, 954103980, 954965481,
   955827761, 956690818, 957554655, 958419273, 959284670, 960150849,
   961017811, 961885555, 962754083, 963623394, 964493491, 965364374,
   966236042, 967108498, 967981742, 968855774, 969730595, 970606207]

/-- K[288] to K[335]. -/
def tuningRow6 : List Nat :=
  [971482609, 972359802, 973237787, 974116565, 974996137, 975876502,
   976757663, 977639619, 978522372, 979405922, 980290269, 981175415,
   982061361, 982948106, 983835652, 984723999, 985613149, 986503101,
   987393857, 988285417, 989177782, 990070953, 990964930, 991859715,
   992755308, 993651709, 994548920, 995446940, 996345772, 997245415,
   998145871, 999047139, 999949222, 1000852119, 1001755831, 1002660359,
   1003565704, 1004471867, 1005378847, 1006286647, 1007195266, 1008104706,
   1009014967, 1009926050, 1010837955, 1011750684, 1012664237, 1013578615]

/-- K[336] to K[383]. -/
def tuningRow7 : List Nat :=
  [1014493818, 1015409848, 1016326705, 1017244390, 1018162904, 1019082246,
   1020002419, 1020923423, 1021845259, 1022767926, 1023691427, 1024615762,
   1025540932, 1026466936, 1027393777, 1028321455, 1029249971, 1030179324,
   1031109517, 1032040550, 1032972424, 1033905139, 1034838696, 1035773096,
   1036708340, 1037644429, 1038581362, 1039519142, 1040457768, 1041397242,
   1042337564, 1043278735, 1044220756, 1045163628, 1046107351, 1047051926,
   1047997354, 1048943636, 1049890772, 1050838763, 1051787610, 1052737314,
   1053687876, 1054639296, 1055591575, 1056544714, 1057498713, 1058453574]

/-- K[384] to K[431]. -/
def tuningRow8 : List Nat :=
  [1059409297, 1060365883, 1061323333, 1062281647, 1063240826, 1064200872,
   1065161785, 1066123565, 1067086213, 1068049731, 1069014119, 1069979378,
   1070945508, 1071912510, 1072880386, 1073849136, 1074818760, 1075789260,
   1076760636, 1077732889, 1078706020, 1079680030, 1080654919, 1081630689,
   1082607340, 1083584872, 1084563287, 1085542586, 1086522769, 1087503837,
   1088485790, 1089468631, 1090452359, 1091436975, 1092422480, 1093408875,
   1094396161, 1095384338, 1096373407, 1097363370, 1098354226, 1099345977,
   1100338624, 1101332166, 1102326606, 1103321944, 1104318181, 1105315317]

/-- K[432] to K[479]. -/
def tuningRow9 : List Nat :=
  [1106313354, 1107312291, 1108312131, 1109312873, 1110314519, 1111317070,
   1112320526, 1113324887, 1114330156, 1115336333, 1116343417, 1117351412,
   1118360316, 1119370132, 1120380859, 1121392499, 1122405052, 1123418519,
   1124432902, 1125448201, 1126464416, 1127481549, 1128499600, 1129518571,
   1130538462, 1131559273, 1132581006, 1133603662, 1134627241, 1135651745,
   1136677174, 1137703528, 1138730809, 1139759018, 1140788155, 1141818222,
   1142849218, 1143881146, 1144914005, 1145947797, 1146982522, 1148018182,
   1149054776, 1150092307, 1151130775, 1152170180, 1153210524, 1154251807]

/-- K[480] to K[527]. -/
def tuningRow10 : List Nat :=
  [1155294030, 1156337195, 1157381301, 1158426350, 1159472343, 1160519280,
   1161567163, 1162615991, 1163665767, 1164716491, 1165768163, 1166820785,
   1167874357, 1168928881, 1169984357, 1171040786, 1172098169, 1173156506,
   1174215800, 1175276049, 1176337256, 1177399422, 1178462546, 1179526630,
   1180591675, 1181657682, 1182724651, 1183792584, 1184861481, 1185931343,
   1187002171, 1188073966, 1189146729, 1190220461, 1191295162, 1192370833,
   1193447476, 1194525091, 1195603678, 1196683240, 1197763777, 1198845289,
   1199927778, 1201011244, 1202095688, 1203181112, 1204267516, 1205354900]

/-- K[528] to K[575]. -/
def tuningRow11 : List Nat :=
  [1206443267, 1207532616, 1208622949, 1209714266, 1210806569, 1211899858,
   1212994134, 1214089399, 1215185652, 1216282895, 1217381129, 1218480355,
   1219580573, 1220681784, 1221783990, 1222887191, 1223991388, 1225096582,
   1226202775, 1227309965, 1228418156, 1229527348, 1230637540, 1231748736,
   1232860934, 1233974137, 1235088345, 1236203559, 1237319781, 1238437010,
   1239555247, 1240674495, 1241794753, 1242916023, 1244038305, 1245161600,
   1246285910, 1247411235, 1248537576, 1249664934, 1250793310, 1251922704,
   1253053119, 1254184554, 1255317011, 1256450491, 1257584994, 1258720521]

/-- K[576] to K[623]. -/
def tuningRow12 : List Nat :=
  [1259857073, 1260994652, 1262133258, 1263272893, 1264413556, 1265555249,
   1266697973, 1267841729, 1268986517, 1270132339, 1271279196, 1272427089,
   1273576018, 1274725984, 1275876988, 1277029032, 1278182117, 1279336242,
   1280491409, 1281647620, 1282804874, 1283963174, 1285122519, 1286282911,
   1287444351, 1288606840, 1289770378, 1290934967, 1292100607, 1293267300,
   1294435047, 1295603847, 1296773704, 1297944616, 1299116586, 1300289614,
   1301463701, 1302638848, 1303815057, 1304992327, 1306170660, 1307350058,
   1308530520, 1309712048, 1310894643, 1312078306, 1313263038, 1314448839]

/-- K[624] to K[671]. -/
def tuningRow13 : List Nat :=
  [1315635711, 1316823655, 1318012672, 1319202762, 1320393926, 1321586167,
   1322779483, 1323973877, 1325169350, 1326365902, 1327563535, 1328762249,
   1329962045, 1331162925, 1332364889, 1333567938, 1334772074, 1335977296,
   1337183607, 1338391008, 1339599498, 1340809080, 1342019754, 1343231521,
   1344444382, 1345658339, 1346873391, 1348089541, 1349306788, 1350525135,
   1351744582, 1352965130, 1354186780, 1355409534, 1356633391, 1357858353,
   1359084422, 1360311597, 1361539881, 1362769273, 1363999776, 1365231390,
   1366464116, 1367697955, 1368932908, 1370168976, 1371406160, 1372644461]

/-- K[672] to K[719]. -/
def tuningRow14 : List Nat :=
  [1373883881, 1375124419, 1376366078, 1377608858, 1378852760, 1380097785,
   1381343934, 1382591209, 1383839610, 1385089138, 1386339794, 1387591579,
   1388844495, 1390098542, 1391353722, 1392610035, 1393867482, 1395126065,
   1396385784, 1397646640, 1398908635, 1400171769, 1401436044, 1402701461,
   1403968020, 1405235723, 1406504571, 1407774564, 1409045704, 1410317991,
   1411591428, 1412866014, 1414141751, 1415418640, 1416696682, 1417975879,
   1419256230, 1420537737, 1421820401, 1423104224, 1424389205, 1425675347,
   1426962651, 1428251116, 1429540745, 1430831539, 1432123498, 1433416623]

/-- K[720] to K[767]. -/
def tuningRow15 : List Nat :=
  [1434710917, 1436006379, 1437303010, 1438600813, 1439899787, 1441199934,
   1442501255, 1443803751, 1445107423, 1446412273, 1447718300, 1449025507,
   1450333894, 1451643463, 1452954214, 1454266148, 1455579268, 1456893572,
   1458209064, 1459525743, 1460843612, 1462162670, 1463482919, 1464804360,
   1466126995, 1467450824, 1468775848, 1470102068, 1471429487, 1472758103,
   1474087920, 1475418937, 1476751156, 1478084577, 1479419203, 1480755034,
   1482092071, 1483430316, 1484769768, 1486110430, 1487452303, 1488795387,
   1490139685, 1491485195, 1492831921, 1494179863, 1495529022, 1496879399]

/-- The table K in rows of 48. -/
def tuningRows : List (List Nat) :=
  [tuningRow0, tuningRow1, tuningRow2, tuningRow3,
   tuningRow4, tuningRow5, tuningRow6, tuningRow7,
   tuningRow8, tuningRow9, tuningRow10, tuningRow11,
   tuningRow12, tuningRow13, tuningRow14, tuningRow15]

/-- K[s] for s of 0 to 767 (R112). -/
def tuning (s : Nat) : Nat := (tuningRows.getD (s / 48) []).getD (s % 48) 0

/-- The phase increment of an effective pitch p: K[s] × 2^o / 1024, rounded down, with octave
o = p / 768 and position s the remainder (R112). -/
def incrementOf (p : Nat) : Word := BitVec.ofNat 32 (tuning (p % 768) * 2 ^ (p / 768) / 1024)

end Sys2Proof.Machine
end

