-- ==== Sys2Proof/Machine/Pool.lean ====
section
/-! DEFINITION. The voice allocator (chapter 5): counts and the free-voice test, claims and steals, the
handover, the free-voice arbiter, note ends and retunes, cap lowering, PANIC and parity faults. -/

namespace Sys2Proof.Machine

/-! ### Counts and the free-voice test (R80, R82, R84) -/

/-- The claim table entry a DRAINING voice is bound to; none for an orphan (R80, R90). -/
def claimOf (s : State) (v : VoiceId) : Option Claim := s.claims.find? fun c => c.voice == v

/-- The slot an entry of the claim table names, as an owner. -/
def Claim.owner (c : Claim) : Owner := ⟨c.station, c.tag, c.layer⟩

/-- Whether a voice is owned by station i. -/
def Voice.ownedBy (x : Voice) (i : StationId) : Bool :=
  match x.owner with
  | some o => o.station == i
  | none => false

/-- Whether voice v counts to station i (R82): SOUNDING or RELEASING and owned by it, or DRAINING
and bound to a claim of it. -/
def countsTo (s : State) (i : StationId) (v : VoiceId) : Bool :=
  match (s.voice v).state with
  | .sounding | .releasing => (s.voice v).ownedBy i
  | .draining =>
    match claimOf s v with
    | some c => c.station == i
    | none => false
  | .free | .faulted => false

/-- The station count n_i (R82). -/
def stationCount (s : State) (i : StationId) : Nat := allVoices.countP (countsTo s i)

/-- U_i: the parts of the other stations' reserves that they have not used (R84). -/
def unusedOthers (s : State) (i : StationId) : Nat :=
  ((allStations.filter (· ≠ i)).map fun t =>
    (s.station t).settings.reserve - stationCount s t).sum

/-- The free-voice test of R84 for station i with f free voices. -/
def freeTest (s : State) (i : StationId) (f : Nat) : Bool :=
  decide (stationCount s i < (s.station i).settings.cap)
    && (decide (stationCount s i < (s.station i).settings.reserve)
      || decide (unusedOthers s i < f))

/-! ### Slots -/

/-- The slot of station i's current note with this tag and layer index. -/
def slotOf (s : State) (i : StationId) (tag : Nat) (layer : LayerId) : Option Slot :=
  match s.note i with
  | some n => if n.tag = tag then n.slots.find? fun x => x.layer == layer else none
  | none => none

/-- s with that slot's state replaced. -/
def setSlot (s : State) (i : StationId) (tag : Nat) (layer : LayerId) (x : SlotState) : State :=
  s.updNote i fun n =>
    if n.tag = tag then
      { n with slots := n.slots.map fun sl => if sl.layer = layer then { sl with state := x } else sl }
    else n

/-- The slot becomes STARVED and an entry for it joins the tail of the starve list (R88, R89, R101). -/
def starveSlot (s : State) (i : StationId) (tag : Nat) (layer : LayerId) : State :=
  { setSlot s i tag layer .starved with starve := s.starve ++ [⟨i, tag, layer⟩] }

/-! ### Pitch, and a voice given to a slot (R108, R110, R112) -/

/-- The pitch value of a note number and a layer's tuning at station i (R110). -/
def pitchValue (s : State) (i : StationId) (number : Nat) (t : Tone) : Nat :=
  clampPitch ((number : Int) * 64 + t.transpose * 64 + t.fine
    + (s.station i).settings.transpose * 64)

/-- The base pitch plus the station's bend, clamped (R112). -/
def effectivePitch (s : State) (i : StationId) (base : Nat) : Nat :=
  clampPitch ((base : Int) + (s.station i).breath.bend)

/-- The record of a voice given to the slot `o` with this layer copy and pitch (R86, R91, R95, R108):
its amplitude and phase are 0 and its claim time is the present timebase. -/
def givenVoice (s : State) (o : Owner) (copy : Option LayerCopy) (pitch : Nat) : Voice where
  state := .sounding
  owner := some o
  claimTime := s.timebase
  releaseStart := 0
  copy := copy
  outStation := some o.station
  base := pitch
  target := pitch
  glide := .stopped
  eff := effectivePitch s o.station pitch
  inc := incrementOf (effectivePitch s o.station pitch)
  phase := 0
  amp := 0
  ampTarget := 0
  completionDue := false

/-- The pitch the slot of a note record sounds at (R86, R91, R95). -/
def slotPitch (s : State) (i : StationId) (copy : Option LayerCopy) : Nat :=
  match s.note i, copy with
  | some n, some c => pitchValue s i n.number c.tone
  | _, _ => 0

/-- Voice v becomes SOUNDING for a slot, and the slot VOICED with it (R77, R86, R91, R95). -/
def giveVoice (s : State) (v : VoiceId) (i : StationId) (tag : Nat) (layer : LayerId) : State :=
  let copy := (slotOf s i tag layer).map Slot.copy
  setSlot (s.updVoice v fun _ => givenVoice s ⟨i, tag, layer⟩ copy (slotPitch s i copy))
    i tag layer (.voiced v)

/-! ### Leaving SOUNDING (R97, R99, R102, R108) -/

/-- A voice enters DRAINING, keeping copy, pitch and amplitude; a glide stops (R88, R101, R102, R108). Its drain
completes at a step of its own, though it enter with amplitude 0 (R94, R116); a voice that is DRAINING already
keeps a completion reported for it (log 13). -/
def Voice.toDrain (x : Voice) : Voice :=
  { x with
    state := .draining
    owner := none
    target := x.base
    glide := .stopped
    completionDue := x.state == .draining && x.completionDue }

/-- A SOUNDING voice enters RELEASING at time t, keeping owner, copy, pitch and amplitude; a glide
stops, and its release completes at a step of its own (R97, R99, R108, R116). The voice of a VOICED slot is SOUNDING in every reachable state; a voice in
any other state stays as it is (log 27). -/
def Voice.toRelease (x : Voice) (t : Word) : Voice :=
  if x.state = .sounding then
    { x with
      state := .releasing
      releaseStart := t
      target := x.base
      glide := .stopped
      completionDue := false }
  else x

/-- Voice v begins its release now (R97, R99). -/
def releaseVoice (s : State) (v : VoiceId) : State :=
  s.updVoice v fun x => x.toRelease s.timebase

/-- The claim of a slot leaves the claim table; its voice drains on as an orphan, a completion already
reported for it staying reported (R92, log 13). -/
def dropClaim (s : State) (i : StationId) (tag : Nat) (layer : LayerId) : State :=
  { s with
    claims := s.claims.filter fun c => !(c.station == i && c.tag == tag && c.layer == layer) }

/-- The entry of a slot leaves the starve list (R98). -/
def dropStarved (s : State) (i : StationId) (tag : Nat) (layer : LayerId) : State :=
  { s with starve := s.starve.filter fun e => e != ⟨i, tag, layer⟩ }

/-! ### The steal order (R85, R87) -/

/-- The age of a stored time (R80). -/
def age (s : State) (t : Word) : Nat := (s.timebase - t).toNat

/-- The candidate with the greatest rank, the first of equals. -/
def best (rank : VoiceId → Nat) : List VoiceId → Option VoiceId
  | [] => none
  | v :: vs =>
    match best rank vs with
    | some w => if rank w ≤ rank v then some v else some w
    | none => some v

/-- Earliest release start first, then lower voice number (R87). -/
def earliestRelease (s : State) (vs : List VoiceId) : Option VoiceId :=
  best (fun v => age s (s.voice v).releaseStart) vs

/-- The layer index a voice sounds. -/
def layerOfVoice (s : State) (v : VoiceId) : Nat := ((s.voice v).owner.elim 0 fun o => o.layer.val)

/-- Highest layer index first, then earliest claim time, then lower voice number (R87): ages lie
below 2^32. -/
def highestLayer (s : State) (vs : List VoiceId) : Option VoiceId :=
  best (fun v => layerOfVoice s v * 4294967296 + age s (s.voice v).claimTime) vs

/-- Whether station t holds more voices than its reserve (R87). -/
def overReserve (s : State) (t : StationId) : Bool :=
  decide ((s.station t).settings.reserve < stationCount s t)

/-- The RELEASING voices owned by a station other than i that is over its reserve, or the SOUNDING
ones: tiers (b) and (d). -/
def ofOthersOver (s : State) (i : StationId) (state : VoiceState) : List VoiceId :=
  allVoices.filter fun v =>
    (s.voice v).state == state
      && (match (s.voice v).owner with
        | some o => o.station != i && overReserve s o.station
        | none => false)

/-- Tier (a): RELEASING voices owned by station i. -/
def tierA (s : State) (i : StationId) : Option VoiceId :=
  earliestRelease s
    (allVoices.filter fun v => (s.voice v).state == .releasing && (s.voice v).ownedBy i)

/-- Tier (b): RELEASING voices of other stations over their reserves. -/
def tierB (s : State) (i : StationId) : Option VoiceId :=
  earliestRelease s (ofOthersOver s i .releasing)

/-- Tier (c): SOUNDING voices of station i's current note of a layer above `layer`. -/
def tierC (s : State) (i : StationId) (tag : Nat) (layer : LayerId) : Option VoiceId :=
  highestLayer s (allVoices.filter fun v =>
    (s.voice v).state == .sounding
      && (match (s.voice v).owner with
        | some o => o.station == i && o.tag == tag && decide (layer < o.layer)
        | none => false))

/-- Tier (d), open while station i is under its reserve: SOUNDING voices of other stations over
theirs. -/
def tierD (s : State) (i : StationId) : Option VoiceId :=
  if stationCount s i < (s.station i).settings.reserve then
    highestLayer s (ofOthersOver s i .sounding)
  else none

/-! ### The claim (R85 to R89) -/

/-- A voice is stolen for a claim (R88): a SOUNDING victim's slot starves, the voice drains bound to a
new claim table entry, and the claimant slot is CLAIMING on it. -/
def stealVoice (s : State) (v : VoiceId) (i : StationId) (tag : Nat) (layer : LayerId) : State :=
  let s1 :=
    match (s.voice v).state, (s.voice v).owner with
    | .sounding, some o => starveSlot s o.station o.tag o.layer
    | _, _ => s
  let s2 := s1.updVoice v Voice.toDrain
  setSlot { s2 with claims := s2.claims ++ [⟨i, tag, layer, v⟩] } i tag layer (.claiming v)

/-- A claim finds no voice (R89): its slot starves and LAYER_STARVED is taken. -/
def starveClaim (s : State) (i : StationId) (tag : Nat) (layer : LayerId) : State :=
  report (starveSlot s i tag layer) .layerStarved (some i) none (some tag)
    (BitVec.ofNat 32 layer.val)

/-- A claim served by a steal where a victim was found, else starving (R85, R87, R89). -/
def stealOrStarve (s : State) (victim : Option VoiceId) (i : StationId) (tag : Nat)
    (layer : LayerId) : State :=
  match victim with
  | some v => stealVoice s v i tag layer
  | none => starveClaim s i tag layer

/-- The victim of a claim by a station below its cap: the four tiers in order (R87). -/
def victimBelowCap (s : State) (i : StationId) (tag : Nat) (layer : LayerId) : Option VoiceId :=
  tierA s i <|> tierB s i <|> tierC s i tag layer <|> tierD s i

/-- The victim of a claim by a station at its cap: its own tiers (a) and (c) (R85). -/
def victimAtCap (s : State) (i : StationId) (tag : Nat) (layer : LayerId) : Option VoiceId :=
  tierA s i <|> tierC s i tag layer

/-- A claim for a slot, settled in one event (R85 to R89). -/
def claimVoice (s : State) (i : StationId) (tag : Nat) (layer : LayerId) : State :=
  if (s.station i).settings.cap ≤ stationCount s i then
    stealOrStarve s (victimAtCap s i tag layer) i tag layer
  else
    match s.freeList with
    | v :: rest =>
      if freeTest s i s.freeList.length then giveVoice { s with freeList := rest } v i tag layer
      else stealOrStarve s (victimBelowCap s i tag layer) i tag layer
    | [] => stealOrStarve s (victimBelowCap s i tag layer) i tag layer

/-! ### Handover and the free-voice arbiter (R91, R94, R95, R96) -/

/-- The drain of a bound voice is complete: the entry leaves the table and the voice goes to the
claimant slot (R91). -/
def handOver (s : State) (c : Claim) : State :=
  giveVoice { s with claims := s.claims.filter fun x => x.voice != c.voice }
    c.voice c.station c.tag c.layer

/-- A voice is freed (R94) and passes through the arbiter (R95): the oldest starve list entry whose
station passes the free-voice test, the freed voice counted as free, receives it; otherwise it joins
the tail of the free list. -/
def freeVoice (s : State) (v : VoiceId) : State :=
  let s1 := s.updVoice v fun _ => Voice.free
  match s1.starve.find? fun e => freeTest s1 e.station (s1.freeList.length + 1) with
  | some e => giveVoice { s1 with starve := s1.starve.erase e } v e.station e.tag e.layer
  | none => { s1 with freeList := s1.freeList ++ [v] }

/-- The starve-list service over the entries still to be scanned (R96). -/
def serveEntries : List Starved → State → State
  | [], s => s
  | e :: rest, s =>
    match s.freeList with
    | [] => s
    | v :: fl =>
      if freeTest s e.station s.freeList.length then
        serveEntries rest
          (giveVoice { s with freeList := fl, starve := s.starve.erase e } v
            e.station e.tag e.layer)
      else serveEntries rest s

/-- The starve-list service from the free list (R96). -/
def serveStarved (s : State) : State := serveEntries s.starve s

/-! ### Note ends and retunes (R99, R100, R111) -/

/-- What NOTE_OFF does for one slot (R99). -/
def endSlot (i : StationId) (tag : Nat) (s : State) (x : Slot) : State :=
  match x.state with
  | .voiced v => releaseVoice s v
  | .claiming _ => dropClaim s i tag x.layer
  | .starved => dropStarved s i tag x.layer
  | .dormant => s

/-- NOTE_OFF for the note of station i, if it sounds one: each slot in layer order, and the note record
is gone (R58, R99). -/
def noteOff (s : State) (i : StationId) : State :=
  match s.note i with
  | some n => (n.slots.foldl (endSlot i n.tag) s).updFingering i fun g => { g with note := none }
  | none => s

/-- A SOUNDING voice receives a new target pitch at a glide rate (R111). -/
def Voice.retarget (x : Voice) (p rate : Nat) : Voice :=
  if p = x.base then { x with target := p, glide := .stopped }
  else if rate = 0 then { x with base := p, target := p, glide := .stopped }
  else
    { x with
      target := p
      glide :=
        match x.glide with
        | .stopped => .running 48
        | .running n => .running n
        | .advanced n => .advanced n }

/-- One slot's part of a retune (R100): only a VOICED slot's voice receives the new target. -/
def retuneSlot (i : StationId) (number : Nat) (s : State) (x : Slot) : State :=
  match x.state with
  | .voiced v =>
    s.updVoice v fun y =>
      y.retarget (pitchValue s i number x.copy.tone) (s.station i).settings.glide
  | .claiming _ | .starved | .dormant => s

/-- The retune of station i's note to the number its record now holds (R57, R100). -/
def retune (s : State) (i : StationId) : State :=
  match s.note i with
  | some n => n.slots.foldl (retuneSlot i n.number) s
  | none => s

/-! ### A cap lowered under a sounding station (R101) -/

/-- The RELEASING or SOUNDING voices owned by station i. -/
def ownedIn (s : State) (i : StationId) (state : VoiceState) : List VoiceId :=
  allVoices.filter fun v => (s.voice v).state == state && (s.voice v).ownedBy i

/-- The removal of one voice from station i, in the order of R101. -/
def removeOne (s : State) (i : StationId) : State :=
  match earliestRelease s (ownedIn s i .releasing) with
  | some v => s.updVoice v Voice.toDrain
  | none =>
    match highestLayer s (ownedIn s i .sounding) with
    | some v =>
      match (s.voice v).owner with
      | some o => starveSlot (s.updVoice v Voice.toDrain) i o.tag o.layer
      | none => s.updVoice v Voice.toDrain
    | none =>
      match s.claims.reverse.find? fun c => c.station == i with
      | some c => starveSlot (dropClaim s i c.tag c.layer) i c.tag c.layer
      | none => s

/-- Removals until the count is down to the cap, at most `fuel` of them. -/
def removeToCap (i : StationId) : Nat → State → State
  | 0, s => s
  | fuel + 1, s =>
    if stationCount s i ≤ (s.station i).settings.cap then s
    else removeToCap i fuel (removeOne s i)

/-- The removals of R101: no station has more than the 32 voices. -/
def lowerToCap (s : State) (i : StationId) : State := removeToCap i 32 s

/-! ### PANIC in the pool (R102) -/

/-- PANIC makes a SOUNDING or RELEASING voice an orphan (R102). -/
def Voice.panicked (x : Voice) : Voice :=
  match x.state with
  | .sounding | .releasing => x.toDrain
  | .free | .draining | .faulted => x

/-- PANIC's effect on the pool (R102). -/
def panicPool (s : State) : State :=
  { s with voices := s.voices.map Voice.panicked, claims := [], starve := [] }

/-! ### Wave parity errors in the pool (R103, R104) -/

/-- The slot whose voice or claim a parity error on voice v takes away: a SOUNDING voice's slot or a
bound voice's claimant slot. -/
def slotLosing (s : State) (v : VoiceId) : Option Owner :=
  match (s.voice v).state with
  | .sounding => (s.voice v).owner
  | .draining => (claimOf s v).map Claim.owner
  | .free | .releasing | .faulted => none

/-- The claim for that slot is made again at once (R103, R104). -/
def reclaim (s : State) (o : Option Owner) : State :=
  match o with
  | some o => claimVoice s o.station o.tag o.layer
  | none => s

/-- The owner a voice keeps when it becomes FAULTED: that of a SOUNDING or RELEASING voice, the claim's
of a bound DRAINING one, none of an orphan (R103). -/
def keptOwner (s : State) (v : VoiceId) : Option Owner :=
  match (s.voice v).state with
  | .draining => (claimOf s v).map Claim.owner
  | .sounding | .releasing | .free | .faulted => (s.voice v).owner

/-- The entry naming voice v leaves the claim table. -/
def unbind (s : State) (v : VoiceId) : State :=
  { s with claims := s.claims.filter fun c => c.voice != v }

/-- WAVE_PARITY enabled: the voice becomes FAULTED with its record kept, and its slot claims again
(R103). -/
def faultVoice (s : State) (v : VoiceId) : State :=
  reclaim
    ((unbind s v).updVoice v fun x =>
      { x with state := .faulted, owner := keptOwner s v, completionDue := false })
    (slotLosing s v)

/-- WAVE_PARITY disabled: the voice becomes, or stays, an orphan, and its slot claims again (R104). -/
def orphanVoice (s : State) (v : VoiceId) : State :=
  reclaim ((unbind s v).updVoice v Voice.toDrain) (slotLosing s v)

end Sys2Proof.Machine
end

