-- ==== Sys2Proof/Machine/Faults.lean ====
section
/-! DEFINITION. The fault capture's writing commands (chapter 9). -/

namespace Sys2Proof.Machine

/-- FAULT_CLEAR (R160): record and flags are cleared when the value equals the fault count, else STALE. -/
def faultClearAnswer (count : Half) (s : State) : Answer :=
  if count = s.faults.count then
    ⟨.ok, [], { s with faults := { s.faults with first := none, flags := 0 } }⟩
  else refuse s .stale

/-- The meaning of FAULT_CLEAR (R160). -/
def execFaultClear (count : Half) (s : State) : Host.Outcome State Fault Refusal :=
  accept s 0x51 (be16 count.toNat) (faultClearAnswer count)

/-- VOICE_RETIRE (R162): a FAULTED voice is freed through the arbiter (R94, R105). -/
def voiceRetireAnswer (voice : Byte) (s : State) : Answer :=
  match nameOf 32 voice with
  | none => refuse s .range
  | some v =>
    if (s.voice v).state = .faulted then ⟨.ok, [], freeVoice s v⟩ else refuse s .notHeld

/-- The meaning of VOICE_RETIRE (R162). -/
def execVoiceRetire (voice : Byte) (s : State) : Host.Outcome State Fault Refusal :=
  accept s 0x52 [voice] (voiceRetireAnswer voice)

/-- The positions of the kinds 1 to 10 in a set (R157, R169). -/
def kindSet : Half := 0x07FE

/-- FAULT_POLICY (R157): both sets replaced, other positions dropped with ADJUSTED. -/
def faultPolicyAnswer (enable mask : Half) (s : State) : Answer :=
  ⟨okOr ((enable &&& ~~~kindSet) != 0 || (mask &&& ~~~kindSet) != 0), [],
    { s with faults := { s.faults with enable := enable &&& kindSet, mask := mask &&& kindSet } }⟩

/-- The meaning of FAULT_POLICY (R157). -/
def execFaultPolicy (enable mask : Half) (s : State) : Host.Outcome State Fault Refusal :=
  accept s 0x53 (be16 enable.toNat ++ be16 mask.toNat) (faultPolicyAnswer enable mask)

end Sys2Proof.Machine
end

