-- ==== Sys2Proof/Config.lean ====
section
/-! DEFINITION. The free values: what the spec leaves open and no proof may see. -/

namespace Sys2Proof

/-- The byte at a place of a response record to which the spec gives no value (log 15).
The first argument numbers the read (State.draws), the second the place in the record. -/
opaque Config.unstatedByte : Nat → Nat → Byte

end Sys2Proof
end

