-- ==== Sys2Proof/Machine/Flags.lean ====
section
/-! DEFINITION. The six indicators: their bytes and the arithmetic that sets them (chapter 1), and the
layer condition they decide (R64). -/

namespace Sys2Proof.Machine

/-- The bit of a flag at place n. -/
def bitAt (b : Bool) (n : Nat) : Nat := if b then 2 ^ n else 0

/-- The four indicators a condition can name: EXCESS, CLIP, BEND, RAISED in bits 0 to 3 (R79). -/
def Indicators.nibble (i : Indicators) : BitVec 4 :=
  BitVec.ofNat 4 (bitAt i.excess 0 + bitAt i.clip 1 + bitAt i.bend 2 + bitAt i.raised 3)

/-- The indicator byte of STATION_READ (section 10.3); its bits 6 and 7, which no table names, are 0
(log 34). -/
def Indicators.byte (i : Indicators) : Byte :=
  BitVec.ofNat 8 (bitAt i.excess 0 + bitAt i.clip 1 + bitAt i.bend 2 + bitAt i.raised 3
    + bitAt i.gate 4 + bitAt i.borrow 5)

/-- A layer's condition against the published indicators (R64, R79): always true of an empty mask;
else ANY when a masked indicator is set, NONE when none is. -/
def conditionHolds (mask : BitVec 4) (sense : CondSense) (i : Indicators) : Bool :=
  if mask = 0 then true
  else
    match sense with
    | .any => (mask &&& i.nibble) != 0
    | .noneOf => (mask &&& i.nibble) == 0

/-- The largest integer whose square does not exceed n, bit by bit from the top (R12). -/
def isqrt (n : Nat) : Nat :=
  (List.range (n.log2 / 2 + 1)).foldr
    (fun b q => if (q + 2 ^ b) * (q + 2 ^ b) ≤ n then q + 2 ^ b else q) 0

/-- The pressure P of the offset step (R9). -/
def pressure (z b : Nat) : Nat := if z ≤ b then b - z else 0

/-- The gated pressure G of the gate step (R10). -/
def gated (threshold p : Nat) : Nat := if p ≤ threshold then 0 else p - threshold

/-- The curve value Q of F (R12, R13). -/
def curveValue (c : Curve) (f : Nat) : Nat :=
  match c with
  | .root => isqrt f
  | .linear => f / 1024

/-- The overblow step's value for EXCESS, the cases in the order of R15. -/
def overblown (x h level : Nat) (gate history : Bool) : Bool :=
  if x = 0 then false
  else if !gate then false
  else if x ≤ level then true
  else if (level : Int) < (x : Int) - (h : Int) then false
  else history

/-- The lip deflection with the dead zone subtracted toward zero (R17). -/
def deflection (centre w lip : Nat) : Int :=
  let d : Int := (lip : Int) - (centre : Int)
  if d > (w : Int) then d - w else if d < -(w : Int) then d + w else 0

/-- The bend: the deflection scaled, rounded down, and limited to ±range (R18). -/
def bendOf (d' : Int) (gain range : Nat) : Int :=
  clampInt (-(range : Int)) range (d' * (gain : Int) / 256)

/-- The breath readings above 4095 are taken as 4095 (R7). -/
def rawReading (n : Nat) : Nat := min 4095 n

end Sys2Proof.Machine
end

