-- ==== Sys2Proof/Machine/Breath.lean ====
section
/-! DEFINITION. The breath unit (chapter 1): one breath computation, the clearing of the breath state, and
the at-once effects of a settings change. -/

namespace Sys2Proof.Machine

/-- The level after the ceiling step (R9 to R14). -/
def levelOf (c : Settings) (z b : Nat) : Nat :=
  min (curveValue c.curve (gated c.threshold (pressure z b) * c.gain)) c.ceiling

/-- The indicators of one computation (R8 to R18): RAISED is left as it stands. -/
def indicatorsOf (c : Settings) (x : Breath) (b lip : Nat) : Indicators :=
  let p := pressure x.zero b
  let gate : Bool := decide (c.threshold < p)
  { gate := gate
    borrow := decide (b < x.zero)
    excess := overblown c.overblow c.hysteresis (levelOf c x.zero b) gate x.history
    clip := decide (c.ceiling < curveValue c.curve (gated c.threshold p * c.gain))
    bend := bendOf (deflection x.lipCentre c.deadZone lip) c.bendGain c.bendRange != 0
    raised := x.ind.raised }

/-- The borrow run after a computation, before zero follow acts on it (R19). -/
def borrowRunOf (run : Nat) (i : Indicators) : Nat :=
  if !i.borrow then 0 else if !i.gate then run + 1 else run

/-- One breath computation on readings already clamped (R6): the new published state, history, borrow
run and zero. A run brought to 256 sets the zero to this frame's reading (R20). -/
def breathStep (c : Settings) (x : Breath) (b lip : Nat) : Breath :=
  let i := indicatorsOf c x b lip
  let run := borrowRunOf x.borrowRun i
  { zero := if run = 256 then b else x.zero
    lipCentre := x.lipCentre
    level := levelOf c x.zero b
    bend := bendOf (deflection x.lipCentre c.deadZone lip) c.bendGain c.bendRange
    ind := i
    history := i.excess
    borrowRun := if run = 256 then 0 else run }

/-- The breath state put to rest (R22): zero and lip centre kept. -/
def Breath.atRest (x : Breath) : Breath :=
  { Breath.reset with zero := x.zero, lipCentre := x.lipCentre }

/-- The breath unit of station i performs the computation of a frame's raw readings (R6, R7). -/
def computeBreath (s : State) (i : StationId) (breath lip : Nat) : State :=
  s.updStation i fun x =>
    { x with breath := breathStep x.settings x.breath (rawReading breath) (rawReading lip) }

/-- The breath state of station i is cleared (R22). -/
def clearBreath (s : State) (i : StationId) : State := s.updBreath i Breath.atRest

/-- A lowered ceiling limits the published level and sets CLIP (R14). -/
def limitLevel (ceiling : Nat) (x : Breath) : Breath :=
  if ceiling < x.level then { x with level := ceiling, ind := { x.ind with clip := true } } else x

/-- A lowered bend range limits the published bend; a range of 0 clears BEND (R18). -/
def limitBend (range : Nat) (x : Breath) : Breath :=
  if range < x.bend.natAbs then
    { x with
      bend := clampInt (-(range : Int)) range x.bend
      ind := { x.ind with bend := x.ind.bend && range != 0 } }
  else x

/-- A changed overblow level clears the overblow history (R16). -/
def forgetOverblow (changed : Bool) (x : Breath) : Breath :=
  if changed then { x with history := false } else x

/-- The at-once effects on the breath state of a STATION_SET that replaced the settings `old`
(R128, second step). -/
def settingsActOnBreath (s : State) (i : StationId) (old : Settings) : State :=
  s.updStation i fun x =>
    { x with
      breath :=
        forgetOverblow (old.overblow != x.settings.overblow)
          (limitBend x.settings.bendRange (limitLevel x.settings.ceiling x.breath)) }

end Sys2Proof.Machine
end

