-- ==== Sys2Proof/Machine/Notes.lean ====
section
/-! DEFINITION. The fingering unit (chapter 3): layer conditions, notes and tags, resolution, the stall on a
chart edit, the work on one frame; and the REPLY that ends it (R151, R152). -/

namespace Sys2Proof.Machine

/-! ### Layer conditions (R64, R66) -/

/-- The evaluation of one slot (R64): a DORMANT slot whose condition is true claims; a slot whose
condition is false hands back its voice, its claim or its place on the starve list. -/
def evalSlot (i : StationId) (tag : Nat) (s : State) (layer : LayerId) : State :=
  match slotOf s i tag layer with
  | none => s
  | some x =>
    if conditionHolds x.copy.tone.mask x.copy.tone.sense (s.station i).breath.ind then
      match x.state with
      | .dormant => claimVoice s i tag layer
      | .voiced _ | .claiming _ | .starved => s
    else
      match x.state with
      | .dormant => s
      | .voiced v => setSlot (releaseVoice s v) i tag layer .dormant
      | .claiming _ => setSlot (dropClaim s i tag layer) i tag layer .dormant
      | .starved => setSlot (dropStarved s i tag layer) i tag layer .dormant

/-- The layer conditions of station i's note, in layer order; nothing while SILENT (R64). -/
def evalConditions (s : State) (i : StationId) : State :=
  match s.note i with
  | some n => ([0, 1, 2] : List LayerId).foldl (evalSlot i n.tag) s
  | none => s

/-! ### Tags (R61) -/

/-- Whether a voice carries a tag (R61): SOUNDING, RELEASING and FAULTED voices their owner's, a bound
DRAINING voice its claim's. -/
def carriesTag (s : State) (tag : Nat) (v : VoiceId) : Bool :=
  match (s.voice v).state with
  | .sounding | .releasing | .faulted =>
    match (s.voice v).owner with
    | some o => o.tag == tag
    | none => false
  | .draining =>
    match claimOf s v with
    | some c => c.tag == tag
    | none => false
  | .free => false

/-- Whether a tag is in use (R61). -/
def tagInUse (s : State) (tag : Nat) : Bool :=
  (allStations.any fun i => match s.note i with
    | some n => n.tag == tag
    | none => false)
  || allVoices.any (carriesTag s tag)

/-- The value after a tag, 255 followed by 1 (R61). -/
def nextTag (t : Nat) : Nat := if 255 ≤ t then 1 else t + 1

/-- The first value not in use, from t on, among at most `fuel` (R61): 36 of 255 are in use at most,
so 255 always suffice. -/
def freeTag (s : State) : Nat → Nat → Nat
  | 0, t => t
  | fuel + 1, t => if tagInUse s t then freeTag s fuel (nextTag t) else t

/-! ### NOTE_ON (R55, R62, R75, R76) -/

/-- A wave reference resolved to the wave's region as its descriptor stands (R75). A template's waves
are defined (R69, R74); the region of an undefined wave, which no reachable copy holds, is taken as
empty (log 27). -/
def resolveWave (s : State) (w : WaveId) : WaveCopy := ⟨w, (s.waves[w]).getD ⟨0, 0⟩⟩

/-- A layer copied into a slot (R75). -/
def copyLayer (s : State) (l : Layer) : LayerCopy :=
  ⟨resolveWave s l.waveA, l.waveB.map (resolveWave s), l.tone⟩

/-- The slots of a note on these layers, each DORMANT (R62, R76). -/
def slotsOf (s : State) (layers : List Layer) : List Slot :=
  (([0, 1, 2] : List LayerId).zip layers).map fun p => ⟨p.1, copyLayer s p.2, .dormant⟩

/-- The record of a note that starts at station i (R62, R76). -/
def newRecord (s : State) (i : StationId) (tag number : Nat) (raised : Bool) : NoteRecord where
  tag := tag
  number := number
  raised := raised
  template :=
    if s.templates[(s.station i).settings.template] = [] then none
    else some (s.station i).settings.template
  slots := slotsOf s s.templates[(s.station i).settings.template]

/-- NOTE_ON (R55): a tag, the note record, SOUNDING with onset pending clear, the layer conditions. -/
def noteOn (s : State) (i : StationId) (number : Nat) (raised : Bool) : State :=
  let tag := freeTag s 255 s.tagCounter
  let s1 := { s with tagCounter := nextTag tag }
  evalConditions
    (s1.updFingering i fun g =>
      { g with note := some (newRecord s1 i tag number raised), onsetPending := false }) i

/-! ### Resolution (R51, R52, R56, R57) -/

/-- Whether a key is pressed in a snapshot. -/
def pressed (snapshot : Word) (k : KeyId) : Bool := snapshot.getLsbD k.val

/-- Whether the register key's raise applies: the key is named and pressed (R51). -/
def keyRaise (e : CurrentEntry) (snapshot : Word) : Bool :=
  match e.regKey with
  | some k => pressed snapshot k
  | none => false

/-- The resolved note number (R51). -/
def resolvedNumber (e : CurrentEntry) (snapshot : Word) (excess : Bool) : Nat :=
  min 127
    (e.note + (if keyRaise e snapshot then e.step else 0)
      + (if e.breathReg && excess then e.step else 0))

/-- RAISED of a resolution (R51): either raise's condition holds and the step is above 0. -/
def resolvedRaised (e : CurrentEntry) (snapshot : Word) (excess : Bool) : Bool :=
  (keyRaise e snapshot || (e.breathReg && excess)) && decide (0 < e.step)

/-- The fingering unit writes RAISED (R24). -/
def setRaised (s : State) (i : StationId) (r : Bool) : State :=
  s.updBreath i fun b => { b with ind := { b.ind with raised := r } }

/-- A miss (R52). -/
def resolveMiss (s : State) (i : StationId) : State :=
  let note := s.note i
  let s1 :=
    report s .chartMiss (some i) none (note.map NoteRecord.tag) (s.station i).fingering.snapshot
  setRaised
    (s1.updFingering i fun g =>
      { g with misses := saturate 255 (g.misses + 1), current := none, changed := 0 })
    i (note.elim false NoteRecord.raised)

/-- A resolved number and RAISED act on the note (R56, R57). -/
def actOnNote (s : State) (i : StationId) (number : Nat) (raised : Bool) : State :=
  match s.note i with
  | none => if (s.station i).fingering.onsetPending then noteOn s i number raised else s
  | some n =>
    if n.number = number then s.updNote i fun n => { n with raised := raised }
    else
      match (s.station i).settings.mode with
      | .legato =>
        evalConditions
          (retune (s.updNote i fun n => { n with number := number, raised := raised }) i) i
      | .retrigger => noteOn (noteOff s i) i number raised

/-- A match (R51). -/
def resolveMatch (s : State) (i : StationId) (e : CurrentEntry) : State :=
  let snapshot := (s.station i).fingering.snapshot
  let excess := (s.station i).breath.ind.excess
  actOnNote
    (setRaised
      (s.updFingering i fun g => { g with current := some e, changed := 0 })
      i (resolvedRaised e snapshot excess))
    i (resolvedNumber e snapshot excess) (resolvedRaised e snapshot excess)

/-- A resolution of station i on its chart's list as it stands (R51). -/
def resolution (s : State) (i : StationId) : State :=
  match lookup s.charts.lists[(s.station i).settings.chart] (s.station i).fingering.snapshot with
  | some e => resolveMatch s i e
  | none => resolveMiss s i

/-! ### Replies (R151, R152) -/

/-- The station state's number (R126). -/
def StationState.number : StationState → Nat
  | .disabled => 0
  | .offline => 1
  | .synced => 2
  | .calibrating => 3
  | .live => 4
  | .lost => 5

/-- The status character (R151, R168). -/
def statusChar (x : StationState) (i : Indicators) : Byte :=
  BitVec.ofNat 8 (x.number + bitAt i.gate 3 + bitAt i.excess 4 + bitAt i.clip 5 + bitAt i.bend 6
    + bitAt i.raised 7)

/-- The note character: the sounding note's number, else 0xFF (R151). -/
def noteChar (g : Fingering) : Byte :=
  match g.note with
  | some n => BitVec.ofNat 8 n.number
  | none => 0xFF

/-- The REPLY to the frame with this sequence number, formed from the station as it stands (R151). -/
def replyOf (x : Station) (seq : Nat) : Reply :=
  let start := BitVec.ofNat 8 (0x80 + seq)
  let note := noteChar x.fingering
  let status := statusChar x.state x.breath.ind
  ⟨start, note, status, -(start + note + status)⟩

/-- A reply begins at the bit time in force (R152). -/
def Link.beginReply (l : Link) (r : Reply) : Link :=
  { l with sending := some ⟨r, 0, 0, l.bitTime, false⟩ }

/-- A reply falls due (R152): sent at once, or pending in place of any reply that was. -/
def Link.queueReply (l : Link) (r : Reply) : Link :=
  match l.sending with
  | none => l.beginReply r
  | some _ => { l with waiting := some r }

/-- The REPLY of station i to the frame with this sequence number falls due (R151). -/
def replyDue (s : State) (i : StationId) (seq : Nat) : State :=
  s.updStation i fun x => { x with link := x.link.queueReply (replyOf x seq) }

/-! ### The stall on a chart edit (R39, R40) -/

/-- The work after a frame's or an expiry's resolution: the conditions while SOUNDING, then a frame's
REPLY (R50, R54 steps 5 and 6). -/
def finishWork (s : State) (i : StationId) (w : StallWork) : State :=
  let s1 := evalConditions s i
  match w with
  | .frame seq => replyDue s1 i seq
  | .expiry => s1

/-- A resolution is called for: the station stalls if its chart has an edit in flight (R39), else the
resolution and the work after it are made. -/
def resolveOrStall (s : State) (i : StationId) (w : StallWork) : State :=
  if s.charts.busy (s.station i).settings.chart then
    s.updStation i fun x => { x with stall := some w }
  else finishWork (resolution s i) i w

/-- A stalled lookup is made and the held work finished (R40); nothing where the station is not
stalled. -/
def resumeStall (s : State) (i : StationId) : State :=
  match (s.station i).stall with
  | some w =>
    finishWork (resolution (s.updStation i fun x => { x with stall := none }) i) i w
  | none => s

/-! ### The work on one frame (R46 to R49, R53, R54) -/

/-- A snapshot with every key at or above the key count released (R46). -/
def maskKeys (count : Nat) (keys : Word) : Word := keys &&& BitVec.ofNat 32 (2 ^ count - 1)

/-- Whether any changed key's edge is covered by its sense (R45, R46). -/
def coveredEdge (senses : Vector KeySense 32) (changed now : Word) : Bool :=
  (List.finRange 32).any fun k =>
    changed.getLsbD k.val
      && (if now.getLsbD k.val then senses[k].coversPress else senses[k].coversRelease)

/-- The settle timer after a frame (R48): a covered edge restarts it, or stops it at a settle time
of 0. -/
def settleAfter (covered : Bool) (settle : Nat) (t : Timer) : Timer :=
  if covered then (if settle = 0 then .stopped else .running (settle * 12)) else t

/-- What a frame brings to the fingering unit: which keys changed, whether an edge is covered, and how
the breath computation changed GATE and EXCESS. -/
structure FrameChanges where
  changed : Word
  covered : Bool
  onset   : Bool
  ended   : Bool
  excess  : Bool

/-- The changes a PLAY frame's keys and its breath computation make, `before` being the station before
the computation and `after` after it (R46, R53, R55, R58). -/
def frameChanges (before after : Station) (keys : Word) : FrameChanges :=
  let now := maskKeys after.keyCount keys
  let changed := after.fingering.snapshot ^^^ now
  { changed := changed
    covered := coveredEdge after.keySense changed now
    onset := !before.breath.ind.gate && after.breath.ind.gate
    ended := before.breath.ind.gate && !after.breath.ind.gate
    excess := before.breath.ind.excess != after.breath.ind.excess }

/-- Whether a frame calls for a resolution (R54 step 4), from its changes and the fingering unit after
step 3: an onset (R55), a covered edge with a settle time of 0 (R48), uncovered changes with no
window pending (R49), a change of EXCESS under R53. A timer that has expired and whose expiry is not yet taken
counts as a pending window (R50; for EXCESS log 17). -/
def callsResolution (c : FrameChanges) (settle : Nat) (g : Fingering) : Bool :=
  c.onset
  || (c.covered && settle == 0)
  || (c.changed != 0 && !c.covered && !g.settle.pending)
  || (c.excess && !g.settle.pending
      && (match g.current with
        | some e => e.breathReg
        | none => false))

/-- Step 1 of R54: the snapshot and the changed-key record (R46). -/
def takeKeys (s : State) (i : StationId) (changed now : Word) : State :=
  s.updFingering i fun g => { g with snapshot := now, changed := g.changed ||| changed }

/-- The end of a note at the fall of GATE (R58). -/
def endNote (s : State) (i : StationId) : State :=
  (noteOff s i).updFingering i fun g => { g with onsetPending := false }

/-- Steps 1 to 3 of R54. At a settle time of 0 a covered edge stops a timer still running (R48, R65); that the
changed-key record is then left to the frame's resolution, which a chart edit may stall, is the model's choice
(log 36). -/
def beginFrame (s : State) (i : StationId) (c : FrameChanges) (keys : Word) : State :=
  let s1 := takeKeys s i c.changed (maskKeys (s.station i).keyCount keys)
  let s2 := if c.ended then endNote s1 i else s1
  s2.updStation i fun x =>
    { x with
      fingering :=
        { x.fingering with
          settle := settleAfter c.covered x.settings.settle x.fingering.settle
          onsetPending := x.fingering.onsetPending || c.onset } }

/-- The fingering unit's work on one performed frame, after its breath computation (R54). `before` is
the station as it stood before the computation. -/
def fingerFrame (s : State) (i : StationId) (before : Station) (keys : Word) (seq : Nat) : State :=
  let c := frameChanges before (s.station i) keys
  let s1 := beginFrame s i c keys
  if callsResolution c (s1.station i).settings.settle (s1.station i).fingering then
    resolveOrStall s1 i (.frame seq)
  else finishWork s1 i (.frame seq)

/-- A PLAY frame is performed: the breath computation, then the fingering unit's work (R6, R54, R133). -/
def performFrame (s : State) (i : StationId) (keys : Word) (breath lip seq : Nat) : State :=
  fingerFrame (computeBreath s i breath lip) i (s.station i) keys seq

/-! ### The fingering unit put back (R59, R60) -/

/-- Leaving LIVE (R59). -/
def putBackFingering (s : State) (i : StationId) : State :=
  (noteOff s i).updFingering i fun g =>
    { g with onsetPending := false, settle := .stopped, changed := 0, snapshot := 0, current := none }

/-- HUSH in LIVE: snapshot and current entry are kept (R60). -/
def hushFingering (s : State) (i : StationId) : State :=
  (noteOff s i).updFingering i fun g =>
    { g with onsetPending := false, settle := .stopped, changed := 0 }

/-- The station engine is free to take its next item of work: not stalled on a chart edit, and no SYNC
waiting, which is taken before anything else (R39, R143; log 21). -/
def Station.engineFree (x : Station) : Bool := x.stall.isNone && !x.syncHanded

/-- The meaning of SETTLE_EXPIRY (R50): the engine takes the expiry of its settle timer, which is then
stopped, and makes the resolution. -/
def execSettleExpiry (i : StationId) (s : State) : Host.Outcome State Fault Refusal :=
  if (s.station i).state = .live ∧ (s.station i).fingering.settle = .expired
      ∧ (s.station i).engineFree then
    .next (resolveOrStall
      (s.updFingering i fun g => { g with settle := .stopped }) i .expiry)
  else .next s

/-- The meaning of EDIT_COMPLETION (R37, R40): the chart's new list takes effect, the edit record is
empty, and stalled stations make their lookups in the order given. -/
def execEditCompletion (order : List StationId) (s : State) : Host.Outcome State Fault Refusal :=
  if s.charts.edit.isSome then
    .next ((inOrder order allStations).foldl resumeStall { s with charts := s.charts.complete })
  else .next s

end Sys2Proof.Machine
end

