-- ==== Sys2Proof/Machine/Stations.lean ====
section
/-! DEFINITION. The station engine (chapter 7): the lifecycle, calibration, frames by state, silence, disable
and enable, and the commands that act on one station or on all notes. -/

namespace Sys2Proof.Machine

/-! ### Changes of state (R126, R129, R150) -/

/-- Station i leaves LIVE for x (R126): a stall is abandoned (R40), the fingering unit put back (R59),
the breath state cleared (R22), the new state taken. -/
def leaveLive (s : State) (i : StationId) (x : StationState) : State :=
  let s1 := s.updStation i fun st => { st with stall := none }
  (clearBreath (putBackFingering s1 i) i).updStation i fun st => { st with state := x }

/-- Station i takes state x: leaving LIVE as R126 lists where it is LIVE, and a calibration in progress
discarded (R129, R135, R136, R137). -/
def enterState (s : State) (i : StationId) (x : StationState) : State :=
  let s1 := if (s.station i).state = .live then leaveLive s i x else s
  s1.updStation i fun st => { st with state := x, calib := Calibration.fresh }

/-- The silence timer stops (R150). -/
def stopSilence (s : State) (i : StationId) : State :=
  s.updLink i fun l => { l with silence := .stopped }

/-- The silence timer runs with 1152 sample periods (R150). -/
def startSilence (s : State) (i : StationId) : State :=
  s.updLink i fun l => { l with silence := .running 1152 }

/-- Station i becomes SYNCED (R129, R137, R150). -/
def becomeSynced (s : State) (i : StationId) : State := stopSilence (enterState s i .synced) i

/-! ### Frames from the buffer (section 7.3 of 07_stations.md) -/

/-- The frame buffer is emptied (R149). -/
def dropBuffer (s : State) (i : StationId) : State := s.updLink i fun l => { l with buffer := none }

/-- The chart setting a HELLO leaves (R130): the preference, when chart follow is on and it names a
chart. -/
def chartAfterHello (c : Settings) (preference : Nat) : ChartId :=
  if h : c.follow = true ∧ preference < 8 then ⟨preference, h.2⟩ else c.chart

/-- A HELLO's class, key count and chart preference are stored after their clamps (R130, R146). -/
def storeHello (s : State) (i : StationId) (cls keyCount preference : Nat) : State :=
  s.updStation i fun x =>
    { x with
      cls := some (min 15 cls)
      keyCount := max 1 (min 32 keyCount)
      settings := { x.settings with chart := chartAfterHello x.settings preference } }

/-- A HELLO taken in SYNCED, CALIBRATING, LIVE or LOST (R130): the silence timer starts from SYNCED
and LOST and runs on otherwise (R150). -/
def takeHello (s : State) (i : StationId) (cls keyCount preference seq : Nat) : State :=
  let s1 := enterState (storeHello s i cls keyCount preference) i .calibrating
  let s2 :=
    if (s.station i).state = .synced ∨ (s.station i).state = .lost then startSilence s1 i else s1
  replyDue s2 i seq

/-- The meaning of HELLO (R130): the engine, free, takes the HELLO in the buffer. In DISABLED and
OFFLINE no HELLO is recognized. -/
def execHello (i : StationId) (s : State) : Host.Outcome State Fault Refusal :=
  match (s.station i).link.buffer with
  | some ⟨seq, .hello cls keyCount preference⟩ =>
    if (s.station i).engineFree then
      match (s.station i).state with
      | .disabled | .offline => .next s
      | .synced | .calibrating | .live | .lost =>
        .next (takeHello (dropBuffer s i) i cls keyCount preference seq)
    else .next s
  | _ => .next s

/-! ### Calibration (R131, R132) -/

/-- Steps 1 and 2 of R131: the sample is gathered. -/
def Calibration.gather (c : Calibration) (b lip : Nat) : Calibration where
  count := c.count + 1
  breathSum := c.breathSum + b
  lipSum := c.lipSum + lip
  minimum := some (c.minimum.elim b fun m => min m b)
  maximum := some (c.maximum.elim b fun m => max m b)

/-- Whether the maximum less the minimum exceeds the spread (R131 step 3). -/
def Calibration.tooWide (c : Calibration) (spread : Nat) : Bool :=
  match c.minimum, c.maximum with
  | some lo, some hi => decide (spread < hi - lo)
  | _, _ => false

/-- A calibration of one sample (R131 step 3). -/
def Calibration.only (b lip : Nat) : Calibration := ⟨1, b, lip, some b, some b⟩

/-- Steps 1 to 3 of R131: the calibration and the restart counter after a sample. -/
def calibSample (spread : Nat) (c : Calibration) (restarts b lip : Nat) : Calibration × Nat :=
  let g := c.gather b lip
  if g.tooWide spread then (Calibration.only b lip, saturate 65535 (restarts + 1))
  else (g, restarts)

/-- Calibration completes (R132): zero and lip centre, LIVE, the borrow run 0. -/
def completeCalibration (x : Station) : Station :=
  { x with
    state := .live
    calib := Calibration.fresh
    breath :=
      { x.breath with
        zero := x.calib.breathSum / 16, lipCentre := x.calib.lipSum / 16, borrowRun := 0 } }

/-- A calibration sample at a station (R131). -/
def sampleStation (b lip : Nat) (x : Station) : Station :=
  let r := calibSample x.settings.spread x.calib x.restarts b lip
  let y := { x with calib := r.1, restarts := r.2 }
  if r.1.count = 16 then completeCalibration y else y

/-- A PLAY frame taken in CALIBRATING (R131, R132), with its REPLY. -/
def takeSample (s : State) (i : StationId) (breath lip seq : Nat) : State :=
  replyDue (s.updStation i (sampleStation (rawReading breath) (rawReading lip))) i seq

/-! ### Link protocol faults (R144, R145, R133, R153) -/

/-- A LINK_PROTOCOL of station i with its cause, character and gathered count (R155, R169), counted by
the protocol counter (R153); the bits of the detail above the cause are 0 (log 34). -/
def protocolFault (s : State) (i : StationId) (cause : Nat) (ch : Byte) (gathered : Nat) : State :=
  report
    (s.updCounters i fun c => { c with protocol := saturate 65535 (c.protocol + 1) })
    .linkProtocol (some i) none none
    (BitVec.ofNat 32 (ch.toNat + gathered * 256 + cause * 4096))

/-! ### PLAY, HUSH, SYNC and silence by state (R129, R133, R134, R135) -/

/-- A PLAY frame taken by the engine, by station state (R133). -/
def takePlay (s : State) (i : StationId) (keys : Word) (breath lip seq : Nat) : State :=
  match (s.station i).state with
  | .disabled | .offline => s
  | .synced => protocolFault s i 4 (BitVec.ofNat 8 (0x20 + seq)) 0
  | .calibrating => takeSample s i breath lip seq
  | .live => performFrame s i keys breath lip seq
  | .lost =>
    performFrame (startSilence (s.updStation i fun x => { x with state := .live }) i) i keys
      breath lip seq

/-- The meaning of PLAY (R131, R133): the engine, free, takes the PLAY in the buffer. -/
def execPlay (i : StationId) (s : State) : Host.Outcome State Fault Refusal :=
  match (s.station i).link.buffer with
  | some ⟨seq, .play keys breath lip⟩ =>
    if (s.station i).engineFree then
      match (s.station i).state with
      | .disabled | .offline => .next s
      | .synced | .calibrating | .live | .lost =>
        .next (takePlay (dropBuffer s i) i keys breath lip seq)
    else .next s
  | _ => .next s

/-- A HUSH taken by the engine (R134): in LIVE the note ends and the breath state is cleared. -/
def takeHush (s : State) (i : StationId) : State :=
  if (s.station i).state = .live then clearBreath (hushFingering s i) i else s

/-- The meaning of HUSH (R134): the engine, free, takes the HUSH in the buffer. -/
def execHush (i : StationId) (s : State) : Host.Outcome State Fault Refusal :=
  match (s.station i).link.buffer with
  | some ⟨_, .hush⟩ =>
    if (s.station i).engineFree then
      match (s.station i).state with
      | .disabled | .offline => .next s
      | .synced | .calibrating | .live | .lost => .next (takeHush (dropBuffer s i) i)
    else .next s
  | _ => .next s

/-- The engine takes a SYNC (R129): the station becomes SYNCED from every state but DISABLED. -/
def takeSync (s : State) (i : StationId) : State :=
  becomeSynced (s.updStation i fun x => { x with syncHanded := false }) i

/-- The meaning of SYNC_TAKEN (R129, R143): the engine takes the SYNC handed to it. -/
def execSyncTaken (i : StationId) (s : State) : Host.Outcome State Fault Refusal :=
  if (s.station i).syncHanded then .next (takeSync s i) else .next s

/-- The silence timer's expiry in LIVE or CALIBRATING (R135): LOST or SYNCED, with LINK_SILENT
carrying the sounding note's tag and the state left. -/
def takeSilence (s : State) (i : StationId) : State :=
  match (s.station i).state with
  | .live =>
    report (stopSilence (leaveLive s i .lost) i) .linkSilent (some i) none
      ((s.note i).map NoteRecord.tag) 4
  | .calibrating => report (becomeSynced s i) .linkSilent (some i) none none 3
  | .disabled | .offline | .synced | .lost => s

/-- The meaning of SILENCE_TIMEOUT (R135): the engine takes the expiry of its silence timer, stalled or
not (R39). -/
def execSilenceTimeout (i : StationId) (s : State) : Host.Outcome State Fault Refusal :=
  if (s.station i).link.silence = .expired ∧ (s.station i).syncHanded = false then
    .next (takeSilence s i)
  else .next s

/-! ### Disable and enable (R136) -/

/-- The receiver of a station that is disabled (R136): bit time forgotten, assembly abandoned, buffer
emptied, silence timer stopped, pending reply discarded, a reply being sent to end after the
character in transmission. -/
def Link.disabled (l : Link) : Link :=
  { l with
    bitTime := none
    character := .absent
    assembly := none
    buffer := none
    silence := .stopped
    waiting := none
    sending := l.sending.map fun x => { x with cut := true } }

/-- Station i is disabled (R136), its clip state showing unsaturated (R119). A SYNC handed over and not
yet taken goes with the rest (log 20). -/
def disableStation (s : State) (i : StationId) : State :=
  ((enterState s i .disabled).updStation i fun x =>
    { x with
      syncHanded := false
      link := x.link.disabled }).unclip i

/-- Station i is enabled (R136): OFFLINE, listening for SYNC. -/
def enableStation (s : State) (i : StationId) : State :=
  s.updStation i fun x => { x with state := .offline }

/-! ### STATION_SET (R128) -/

/-- Step 1 of R128: enable changed from 1 to 0, or from 0 to 1. -/
def actOnEnable (s : State) (i : StationId) (old : Settings) : State :=
  match old.enable, (s.station i).settings.enable with
  | true, false => disableStation s i
  | false, true => enableStation s i
  | true, true | false, false => s

/-- Step 3 of R128: a stalled lookup whose chart setting now names another chart is made (R40). -/
def actOnStall (s : State) (i : StationId) : State :=
  if s.charts.busy (s.station i).settings.chart then s else resumeStall s i

/-- Step 4 of R128: a lowered cap removes voices (R101). -/
def actOnCap (s : State) (i : StationId) (old : Settings) : State :=
  if (s.station i).settings.cap < old.cap then lowerToCap s i else s

/-- Step 5 of R128: a changed reserve or cap leads to the starve-list service (R96). -/
def actOnPool (s : State) (old new : Settings) : State :=
  if old.reserve = new.reserve ∧ old.cap = new.cap then s else serveStarved s

/-- The settings of station i are stored together and then act in the order of R128. -/
def applySettings (s : State) (i : StationId) (new : Settings) : State :=
  let old := (s.station i).settings
  let s1 := s.updStation i fun x => { x with settings := new }
  let s2 := actOnEnable s1 i old
  let s3 := settingsActOnBreath s2 i old
  let s4 := actOnStall s3 i
  actOnPool (actOnCap s4 i old) old new

/-- The reserves stored for the stations other than i (R83). -/
def otherReserves (s : State) (i : StationId) : Nat :=
  ((allStations.filter (· ≠ i)).map fun t => (s.station t).settings.reserve).sum

/-- STATION_SET: the tests of R128 in their order, then the settings. -/
def stationSetAnswer (p : StationSetParams) (s : State) : Answer :=
  match nameOf 4 p.station with
  | none => refuse s .range
  | some i =>
    match nameOf 16 p.template with
    | none => refuse s .range
    | some t =>
      match nameOf 8 p.chart with
      | none => refuse s .range
      | some c =>
        if 32 < p.reserve.toNat + otherReserves s i then refuse s .range
        else
          ⟨okOr (settingsClamped p (settingsOf p t c)), [], applySettings s i (settingsOf p t c)⟩

/-- The meaning of STATION_SET (R128). -/
def execStationSet (p : StationSetParams) (s : State) : Host.Outcome State Fault Refusal :=
  accept s 0x03 (stationSetBytes p) (stationSetAnswer p)

/-! ### KEYSENSE_SET, STATION_RESTART, PANIC -/

/-- KEYSENSE_SET (R45). -/
def keysenseSetAnswer (station : Byte) (senses : Vector Byte 8) (s : State) : Answer :=
  match nameOf 4 station with
  | none => refuse s .range
  | some i => ⟨.ok, [], s.updStation i fun x => { x with keySense := senseTable senses }⟩

/-- The meaning of KEYSENSE_SET (R45). -/
def execKeysenseSet (station : Byte) (senses : Vector Byte 8) (s : State) :
    Host.Outcome State Fault Refusal :=
  accept s 0x04 (station :: senses.toList) (keysenseSetAnswer station senses)

/-- The restart's part at the receiver (R137): the buffer emptied, the sequence window open. -/
def reopenWindow (s : State) (i : StationId) : State :=
  s.updLink i fun l => { l with buffer := none, windowOpen := true }

/-- A restart of station i, by its state (R137). -/
def restartStation (s : State) (i : StationId) : State :=
  match (s.station i).state with
  | .disabled | .offline => s
  | .synced => reopenWindow s i
  | .calibrating | .live | .lost => reopenWindow (becomeSynced s i) i

/-- STATION_RESTART (R137). -/
def stationRestartAnswer (station : Byte) (s : State) : Answer :=
  match nameOf 4 station with
  | none => refuse s .range
  | some i => ⟨.ok, [], restartStation s i⟩

/-- The meaning of STATION_RESTART (R137). -/
def execStationRestart (station : Byte) (s : State) : Host.Outcome State Fault Refusal :=
  accept s 0x05 [station] (stationRestartAnswer station)

/-- PANIC at one fingering unit (R60): the note is gone without a NOTE_OFF, onset pending clear. -/
def Station.panicked (x : Station) : Station :=
  { x with fingering := { x.fingering with note := none, onsetPending := false } }

/-- PANIC: every note ends and the pool drains (R60, R102, R138). -/
def panicAnswer (s : State) : Answer :=
  ⟨.ok, [], { panicPool s with stations := s.stations.map Station.panicked }⟩

/-- The meaning of PANIC (R102, R138). -/
def execPanic (s : State) : Host.Outcome State Fault Refusal := accept s 0x06 [] panicAnswer

end Sys2Proof.Machine
end

