-- ==== Sys2Proof/Machine/Links.lean ====
section
/-! DEFINITION. The link receivers (chapter 8): characters, frame assembly, the check, the sequence window, the
frame buffer, SYNC detection, and the end of a reply. -/

namespace Sys2Proof.Machine

/-- The receiver ignores its line while the station is DISABLED (R136), during the power-on clear
(R140), and while RST_N is asserted (log 10). -/
def lineIgnored (s : State) (i : StationId) : Bool :=
  s.clearRunning || s.rstAsserted || (s.station i).state == .disabled

/-! ### Frames (R144 to R149) -/

/-- The start character of a frame kind and sequence number (R144). -/
def FrameKind.startChar (k : FrameKind) (seq : Nat) : Byte :=
  match k with
  | .hello => BitVec.ofNat 8 (0x10 + seq)
  | .play => BitVec.ofNat 8 (0x20 + seq)
  | .hush => BitVec.ofNat 8 (0x30 + seq)

/-- The length of a frame of each kind, start and check included (R144). -/
def FrameKind.length : FrameKind → Nat
  | .hello => 5
  | .play => 10
  | .hush => 2

/-- The kind a start character's upper four bits name (R144). -/
def frameKindOf (b : Byte) : Option FrameKind :=
  match b.toNat / 16 with
  | 1 => some .hello
  | 2 => some .play
  | 3 => some .hush
  | _ => none

/-- The n-th character of a frame as a number. -/
def charAt (chars : List Byte) (n : Nat) : Nat := (chars.getD n 0).toNat

/-- The content fields of a complete frame (R146, R168): two-character fields and the key field low
byte first. -/
def contentOf (k : FrameKind) (chars : List Byte) : FrameContent :=
  match k with
  | .hello => .hello (charAt chars 1) (charAt chars 2) (charAt chars 3)
  | .play =>
    .play
      (BitVec.ofNat 32 (charAt chars 1 + charAt chars 2 * 256 + charAt chars 3 * 65536
        + charAt chars 4 * 16777216))
      (charAt chars 5 + charAt chars 6 * 256) (charAt chars 7 + charAt chars 8 * 256)
  | .hush => .hush

/-- The sum of a frame's characters modulo 256 (R147). -/
def checkSum (chars : List Byte) : Byte := chars.foldl (· + ·) 0

/-- The frames taken as missed when a frame with this number passes the sequence window; none where it is
stale (R148). With no last number the window is open in every reachable state (log 26). -/
def windowMissed (l : Link) (seq : Nat) : Option Nat :=
  if l.windowOpen then some 0
  else
    match l.lastSeq with
    | none => some 0
    | some last =>
      let d := (seq + 16 - last) % 16
      if 1 ≤ d ∧ d ≤ 8 then some (d - 1) else none

/-- A frame is accepted (R148, R149, R150): into the buffer, the window's outcome taking effect, the
silence timer restarted in CALIBRATING and LIVE. -/
def acceptFrame (s : State) (i : StationId) (f : Frame) (missed : Nat) : State :=
  let s1 := s.updLink i fun l =>
    { l with
      buffer := some f
      lastSeq := some f.seq
      windowOpen := false
      counters := { l.counters with missed := saturate 65535 (l.counters.missed + missed) } }
  if (s.station i).state = .calibrating ∨ (s.station i).state = .live then startSilence s1 i else s1

/-- A frame that has passed the check meets the sequence window and the buffer (R148, R149). -/
def windowFrame (s : State) (i : StationId) (k : FrameKind) (f : Frame) : State :=
  match windowMissed (s.station i).link f.seq with
  | none => s.updCounters i fun c => { c with stale := saturate 65535 (c.stale + 1) }
  | some missed =>
    match (s.station i).link.buffer with
    | none => acceptFrame s i f missed
    | some _ =>
      report s .linkOverrun (some i) none none
        (BitVec.ofNat 32 (k.startChar f.seq).toNat)

/-- A complete frame is checked (R147). -/
def completeFrame (s : State) (i : StationId) (a : FrameAssembly) : State :=
  if checkSum a.chars = 0 then windowFrame s i a.kind ⟨a.seq, contentOf a.kind a.chars⟩
  else
    report
      (s.updCounters i fun c => { c with check := saturate 65535 (c.check + 1) })
      .linkCheck (some i) none none
      (BitVec.ofNat 32 ((a.kind.startChar a.seq).toNat + (checkSum a.chars).toNat * 256))

/-- The frame in assembly is replaced. -/
def setAssembly (s : State) (i : StationId) (a : Option FrameAssembly) : State :=
  s.updLink i fun l => { l with assembly := a }

/-- An incomplete frame is dropped with LINK_PROTOCOL, if there is one (R143, R145). -/
def dropIncomplete (s : State) (i : StationId) : State :=
  match (s.station i).link.assembly with
  | none => s
  | some a =>
    protocolFault (setAssembly s i none) i 3 (a.kind.startChar a.seq) a.chars.length

/-- A frame-start character with no frame in assembly begins a frame or is dropped (R144). -/
def beginAssembly (s : State) (i : StationId) (b : Byte) : State :=
  match frameKindOf b with
  | some k => setAssembly s i (some ⟨k, b.toNat % 16, k.length, [b]⟩)
  | none => protocolFault s i 1 b 0

/-- A data character (R145). -/
def takeData (s : State) (i : StationId) (b : Byte) : State :=
  match (s.station i).link.assembly with
  | none => protocolFault s i 2 b 0
  | some a =>
    let a' := { a with chars := a.chars ++ [b] }
    if a'.chars.length = a.expected then completeFrame (setAssembly s i none) i a'
    else setAssembly s i (some a')

/-- A framing error (R141): the frame in assembly is abandoned, LINK_FRAMING is taken and counted.
The detail is data byte and mark bit, its other bits 0 (log 34). -/
def framingError (s : State) (i : StationId) (data : Byte) (mark : Bool) : State :=
  report
    ((setAssembly s i none).updCounters i fun c =>
      { c with framing := saturate 65535 (c.framing + 1) })
    .linkFraming (some i) none none (BitVec.ofNat 32 (data.toNat + (if mark then 256 else 0)))

/-- A complete character (R141, R142, R145): 0x55 with its mark bit 1 is the SYNC detector's, and is
otherwise ignored. -/
def takeCharacter (s : State) (i : StationId) (data : Byte) (mark : Bool) : State :=
  if mark then
    if data = 0x55 then s else beginAssembly (dropIncomplete s i) i data
  else takeData s i data

/-- The data byte among the eleven bits of a character: data bit j is bit j + 1 (R168). -/
def dataByte (bits : List Bool) : Byte :=
  BitVec.ofNat 8 (((bits.drop 1).take 8).foldr (fun b n => b.toNat + 2 * n) 0)

/-- The eleven bits of a character have been sampled: a stop bit of 0 is a framing error (R141). -/
def endCharacter (s : State) (i : StationId) (bits : List Bool) : State :=
  if bits.getD 10 true then takeCharacter s i (dataByte bits) (bits.getD 9 true)
  else framingError s i (dataByte bits) (bits.getD 9 true)

/-- A character in assembly with its latest bit sampled, and all its bits once the stop bit is among them: a start
bit of 1 abandons it, and after a stop bit of 0 the receiver waits for a 1 (R141). -/
def CharacterAssembly.sampled (elapsed : Nat) (bits : List Bool) :
    CharacterAssembly × Option (List Bool) :=
  if bits = [true] then (.absent, none)
  else if bits.length = 11 then (if bits.getD 10 true then .absent else .heldLow 0, some bits)
  else (.assembling elapsed bits, none)

/-- One MCLK period of the line at bit time T, and the bits of a character that completes in it (R141). A level of 0
with the line resting begins a character; bit n is sampled n × T + T / 2 periods after that; after a framing error
the line is sampled at each whole bit time until it reads 1. -/
def CharacterAssembly.hear (T : Nat) (c : CharacterAssembly) (level : Bool) :
    CharacterAssembly × Option (List Bool) :=
  match c with
  | .absent => (if level then .absent else .assembling 0 [], none)
  | .assembling elapsed bits =>
    if elapsed + 1 = bits.length * T + T / 2 then sampled (elapsed + 1) (bits ++ [level])
    else (.assembling (elapsed + 1) bits, none)
  | .heldLow elapsed =>
    (if elapsed + 1 = T then (if level then .absent else .heldLow 0) else .heldLow (elapsed + 1), none)

/-- The character in assembly of station i is replaced. -/
def setCharacter (s : State) (i : StationId) (c : CharacterAssembly) : State :=
  s.updLink i fun l => { l with character := c }

/-- Station i's line at bit time T over successive MCLK periods, from a character in assembly on; each character that
completes is taken (R141). -/
def hearLevels (i : StationId) (T : Nat) : CharacterAssembly → State → List Bool → State
  | c, s, [] => setCharacter s i c
  | c, s, level :: levels =>
    match c.hear T level with
    | (c', none) => hearLevels i T c' s levels
    | (c', some bits) => hearLevels i T c' (endCharacter (setCharacter s i c') i bits) levels

/-- The meaning of CHARACTER (R141): the receiver hears its line, period by period, while the station has a bit
time. How the levels are divided among the operands makes no difference to it (log 19). -/
def execCharacter (i : StationId) (start data mark stop : List Bool) (s : State) :
    Host.Outcome State Fault Refusal :=
  if lineIgnored s i then .next s
  else
    match (s.station i).link.bitTime with
    | some T => .next (hearLevels i T (s.station i).link.character s (start ++ data ++ mark ++ stop))
    | none => .next s

/-! ### SYNC (R142, R143) -/

/-- The span of nine intervals divided by 9, rounded to the nearest integer (R142). -/
def measuredBitTime (intervals : List Nat) : Nat := (2 * intervals.sum + 9) / 18

/-- The detector's tests (R142): nine intervals, each between three quarters and five quarters of the
measured bit time, which is 8–99, and the stop bit 1. -/
def syncAccepted (intervals : List Nat) (stop : Bool) : Bool :=
  let t := measuredBitTime intervals
  intervals.length == 9 && decide (8 ≤ t ∧ t ≤ 99) && stop
    && intervals.all fun n => decide (3 * t ≤ 4 * n ∧ 4 * n ≤ 5 * t)

/-- Steps 2 to 5 of R143 at the receiver, the bit time learned. -/
def Link.synced (l : Link) (bitTime : Nat) : Link :=
  { l with
    bitTime := some bitTime
    character := .absent
    buffer := none
    windowOpen := true
    waiting := none }

/-- The SYNC is handed to the engine (R143 step 6): an engine stalled on a chart edit takes it at once. -/
def handSync (s : State) (i : StationId) : State :=
  if (s.station i).stall.isSome then takeSync s i
  else s.updStation i fun x => { x with syncHanded := true }

/-- The meaning of SYNC (R142, R143): a pattern the detector accepts is learned and handed over; any other
is ignored. -/
def execSync (i : StationId) (intervals : List Nat) (stop : Bool) (s : State) :
    Host.Outcome State Fault Refusal :=
  if lineIgnored s i || !syncAccepted intervals stop then .next s
  else
    .next (handSync
      ((dropIncomplete s i).updLink i fun l => l.synced (measuredBitTime intervals)) i)

/-! ### The transmit line and the end of a reply (R152, R168) -/

/-- The eleven bits of a character on a breath link: start bit, data bits 0 to 7, mark bit, stop bit
(R168). -/
def characterBits (data : Byte) (mark : Bool) : List Bool :=
  false :: ((List.range 8).map data.getLsbD ++ [mark, true])

/-- The characters of a reply, each with its mark bit: 1 for the first (R152, R168). -/
def Reply.characters (r : Reply) : List (Byte × Bool) :=
  [(r.start, true), (r.note, false), (r.status, false), (r.check, false)]

/-- The bits of one transmission from its beginning, each a bit time long (R152): all four characters
back to back, or those up to the one in transmission when the station was disabled (R136). -/
def Sending.bits (x : Sending) : List Bool :=
  let chars := x.reply.characters
  (if x.cut then chars.take (x.position + 1) else chars).flatMap fun c => characterBits c.1 c.2

/-- What station i's transmit line LTX carries from the beginning of the present transmission on, bit
time by bit time: nothing between replies and during the power-on clear (R140, R152). -/
def State.ltx (s : State) (i : StationId) : List Bool :=
  if s.clearRunning then [] else (s.station i).link.sending.elim [] Sending.bits

/-- The level of LTX in the n-th bit time from there on: the line rests at 1 (R152). -/
def State.ltxLevel (s : State) (i : StationId) (n : Nat) : Bool := (s.ltx i).getD n true

/-- The bit time of a transmission that is present: eleven for each character sent, and the whole bit times since the
character in transmission began (R152). -/
def Sending.bitNow (x : Sending) (T : Nat) : Nat := 11 * x.position + x.elapsed / T

/-- The level of LTX in the present MCLK period: that of the present bit time, and 1 where no reply is being sent
(R140, R152). -/
def State.ltxNow (s : State) (i : StationId) : Bool :=
  match (s.station i).link.sending with
  | none => true
  | some x => x.bitTime.elim true fun T => s.ltxLevel i (x.bitNow T)

/-- The reply being sent ends; the pending one, if any, begins at the bit time in force (R152). -/
def Link.endReply (l : Link) : Link :=
  match l.waiting with
  | some r => { l with sending := some ⟨r, 0, 0, l.bitTime, false⟩, waiting := none }
  | none => { l with sending := none }

/-- The meaning of REPLY_END (R152). -/
def execReplyEnd (i : StationId) (s : State) : Host.Outcome State Fault Refusal :=
  if (s.station i).link.sending.isSome then .next (s.updLink i Link.endReply) else .next s

end Sys2Proof.Machine
end

