-- ==== Sys2Proof/Machine/Records.lean ====
section
/-! DEFINITION. The response records of STATUS_READ, STATION_READ, VOICE_READ and FAULT_READ (sections 10.2 to
10.4), and those commands. A byte to which the spec gives no value is a free value (log 15). -/

namespace Sys2Proof.Machine

/-- The byte at place n of the record now read, where the spec gives it no value (log 15). -/
def freeByte (s : State) (n : Nat) : List Byte := [Config.unstatedByte s.draws n]

/-- The bytes at `count` places from n on, where the spec gives them no value (log 15). -/
def freeBytes (s : State) (n count : Nat) : List Byte :=
  (List.range count).map fun j => Config.unstatedByte s.draws (n + j)

/-! ### STATUS_READ (R167) -/

/-- A claim table entry in 4 bytes (R167). -/
def claimBytes (c : Claim) : List Byte :=
  be8 c.station.val ++ be8 c.tag ++ be8 c.layer.val ++ be8 c.voice.val

/-- A starve list entry in 3 bytes (R167). -/
def starvedBytes (e : Starved) : List Byte :=
  be8 e.station.val ++ be8 e.tag ++ be8 e.layer.val

/-- A wave descriptor in 4 bytes (R167). -/
def descriptorBytes (r : Option WaveRegion) : List Byte :=
  match r with
  | some r => be8 1 ++ be16 r.start ++ be8 r.k
  | none => [0, 0, 0, 0]

/-- The device record (R167). -/
def statusRecord (s : State) : List Byte :=
  be32 s.timebase.toNat
    ++ s.stations.toList.flatMap (fun x => be8 x.state.number)
    ++ (be8 s.freeList.length ++ padTo 32 0xFF (s.freeList.flatMap fun v => be8 v.val))
    ++ allStations.flatMap (fun i => be8 (stationCount s i))
    ++ (be8 s.claims.length ++ padTo 48 0xFF (s.claims.flatMap claimBytes))
    ++ (be8 s.starve.length ++ padTo 36 0xFF (s.starve.flatMap starvedBytes))
    ++ be8 s.tagCounter
    ++ s.waves.toList.flatMap descriptorBytes
    ++ flag8 s.faults.alert

/-- STATUS_READ (R167). -/
def statusReadAnswer (s : State) : Answer := ⟨.ok, statusRecord s, s⟩

/-- The meaning of STATUS_READ (R167). -/
def execStatusRead (s : State) : Host.Outcome State Fault Refusal := accept s 0x01 [] statusReadAnswer

/-! ### STATION_READ (R139, R169) -/

/-- Group Engine, 10 bytes. -/
def engineBytes (x : Station) : List Byte :=
  be8 x.state.number ++ be8 (x.cls.getD 0xFF) ++ be8 x.keyCount ++ be8 x.calib.count
    ++ be16 (x.calib.minimum.getD 0xFFFF) ++ be16 (x.calib.maximum.getD 0xFFFF)
    ++ be16 x.restarts

/-- Group Breath, 10 bytes. -/
def breathBytes (b : Breath) : List Byte :=
  be16 b.level ++ signed16 b.bend ++ [b.ind.byte] ++ be16 b.zero ++ be16 b.lipCentre
    ++ be8 b.borrowRun

/-- A settle timer: 0xFFFF stopped, else its remaining time (R63, section 10.3). A timer that has expired is
stopped (R48), whether or not its expiry has been taken (log 17). -/
def Timer.code : Timer → Nat
  | .stopped | .expired => 0xFFFF
  | .running n => n

/-- The five bytes of the current entry: present, note, register key, step, flag. Of an absent entry the
note, the step and the flag have no stated value (log 15). -/
def currentBytes (s : State) (e : Option CurrentEntry) : List Byte :=
  match e with
  | some e => flag8 true ++ be8 e.note ++ orFF e.regKey ++ be8 e.step ++ flag8 e.breathReg
  | none => flag8 false ++ freeByte s 0 ++ [0xFF] ++ freeByte s 1 ++ freeByte s 2

/-- Group Fingering, 18 bytes. -/
def fingeringBytes (s : State) (g : Fingering) : List Byte :=
  be32 g.snapshot.toNat ++ be32 g.changed.toNat ++ be16 g.settle.code ++ flag8 g.note.isSome
    ++ flag8 g.onsetPending ++ currentBytes s g.current ++ be8 g.misses

/-- The code of a slot state (section 10.3). -/
def SlotState.code : SlotState → Nat
  | .dormant => 0
  | .starved => 1
  | .claiming _ => 2
  | .voiced _ => 3

/-- The voice field of a slot: absent in DORMANT and STARVED (R62). -/
def SlotState.voice : SlotState → Option VoiceId
  | .dormant | .starved => none
  | .claiming v | .voiced v => some v

/-- A slot in 3 bytes: layer index, state, voice. -/
def slotBytes (x : Slot) : List Byte :=
  be8 x.layer.val ++ be8 x.state.code ++ orFF x.state.voice

/-- A place with no slot: layer index and voice absent, the state without a stated value (log 15). -/
def noSlotBytes (s : State) (n : Nat) : List Byte := [0xFF] ++ freeByte s n ++ [0xFF]

/-- The three slot places of a note record. -/
def slotPlaces (s : State) (slots : List Slot) : List Byte :=
  (List.range 3).flatMap fun n =>
    match slots[n]? with
    | some x => slotBytes x
    | none => noSlotBytes s (5 + n)

/-- Group Note record, 14 bytes. While SILENT the tag is 0, the template absent and there are no slots; the
note number and RAISED have no stated value (log 15). -/
def noteBytes (s : State) (n : Option NoteRecord) : List Byte :=
  match n with
  | some n =>
    be8 n.tag ++ be8 n.number ++ flag8 n.raised ++ orFF n.template ++ be8 n.slots.length
      ++ slotPlaces s n.slots
  | none => be8 0 ++ freeByte s 3 ++ freeByte s 4 ++ [0xFF] ++ be8 0 ++ slotPlaces s []

/-- Group Link, 11 bytes; a bit time of none reads 0 (section 10.3). -/
def linkBytes (l : Link) : List Byte :=
  be8 (l.bitTime.getD 0) ++ be16 l.counters.missed ++ be16 l.counters.stale
    ++ be16 l.counters.framing ++ be16 l.counters.check ++ be16 l.counters.protocol

/-- The status record of station i (R139, R169). -/
def stationRecord (s : State) (i : StationId) : List Byte :=
  let x := s.station i
  engineBytes x ++ settingBytes x.settings ++ breathBytes x.breath
    ++ fingeringBytes s x.fingering ++ noteBytes s x.fingering.note
    ++ (be8 x.settings.reserve ++ be8 x.settings.cap ++ be8 (stationCount s i))
    ++ linkBytes x.link

/-- A clearing read sets the restart counter, the miss counter and the link counters to 0 (R139). -/
def Station.countersCleared (x : Station) : Station :=
  { x with
    restarts := 0
    fingering := { x.fingering with misses := 0 }
    link := { x.link with counters := LinkCounters.zero } }

/-- STATION_READ (R139). -/
def stationReadAnswer (station clear : Byte) (s : State) : Answer :=
  match nameOf 4 station with
  | none => refuse s .range
  | some i =>
    ⟨.ok, stationRecord s i,
      nextDraw (if clear = 0 then s else s.updStation i Station.countersCleared)⟩

/-- The meaning of STATION_READ (R139). -/
def execStationRead (station clear : Byte) (s : State) : Host.Outcome State Fault Refusal :=
  accept s 0x02 [station, clear] (stationReadAnswer station clear)

/-! ### VOICE_READ (R106, R169) -/

/-- The code of a voice state (section 10.3). -/
def VoiceState.code : VoiceState → Nat
  | .free => 0
  | .sounding => 1
  | .releasing => 2
  | .draining => 3
  | .faulted => 4

/-- The owner or the binding of a voice (R106). -/
def ownerOrBinding (s : State) (v : VoiceId) : Option Owner :=
  match (s.voice v).state with
  | .free => none
  | .sounding | .releasing | .faulted => (s.voice v).owner
  | .draining => (claimOf s v).map Claim.owner

/-- Station, tag and layer index, absent where there is no owner (section 10.3). -/
def ownerBytes (o : Option Owner) : List Byte :=
  match o with
  | some o => be8 o.station.val ++ be8 o.tag ++ be8 o.layer.val
  | none => [0xFF, 0, 0xFF]

/-- Bound 0 or orphan 1 while DRAINING, else 0xFF. -/
def bindingByte (s : State) (v : VoiceId) : List Byte :=
  match (s.voice v).state with
  | .draining => be8 (if (claimOf s v).isSome then 0 else 1)
  | .free | .sounding | .releasing | .faulted => [0xFF]

/-- The claim time of a SOUNDING or FAULTED voice, the release start of a RELEASING one, else 0. -/
def voiceTime (x : Voice) : Word :=
  match x.state with
  | .sounding | .faulted => x.claimTime
  | .releasing => x.releaseStart
  | .free | .draining => 0

/-- A wave region in 3 bytes: start and k. -/
def regionBytes (r : WaveRegion) : List Byte := be16 r.start ++ be8 r.k

/-- A layer copy in 18 bytes. The region of an absent wave B, and of an absent copy everything but the wave
references, has no stated value (log 15). -/
def copyBytes (s : State) (c : Option LayerCopy) : List Byte :=
  match c with
  | some c =>
    be8 c.waveA.wave.val ++ orFF (c.waveB.map WaveCopy.wave) ++ toneBytes c.tone
      ++ regionBytes c.waveA.region
      ++ (match c.waveB with
        | some b => regionBytes b.region
        | none => freeBytes s 13 3)
  | none => [0xFF, 0xFF] ++ freeBytes s 0 16

/-- The layer copy a voice reports: none while FREE (R77, R106). -/
def reportedCopy (x : Voice) : Option LayerCopy := if x.state = .free then none else x.copy

/-- The free-list position of a FREE voice (R106). -/
def positionByte (s : State) (v : VoiceId) : List Byte :=
  if (s.voice v).state = .free then be8 (s.freeList.idxOf v) else [0xFF]

/-- The renderer's items in 15 bytes (R106, R169). -/
def renderBytes (x : Voice) : List Byte :=
  orFF x.outStation ++ be16 x.base ++ be16 x.target ++ be16 x.eff ++ be16 x.amp
    ++ be16 x.ampTarget ++ be32 x.phase.toNat

/-- The record of voice v (R106, R169). -/
def voiceRecord (s : State) (v : VoiceId) : List Byte :=
  let x := s.voice v
  be8 x.state.code ++ positionByte s v ++ ownerBytes (ownerOrBinding s v) ++ bindingByte s v
    ++ be32 (voiceTime x).toNat ++ copyBytes s (reportedCopy x) ++ renderBytes x

/-- VOICE_READ (R106). -/
def voiceReadAnswer (voice : Byte) (s : State) : Answer :=
  match nameOf 32 voice with
  | none => refuse s .range
  | some v => ⟨.ok, voiceRecord s v, nextDraw s⟩

/-- The meaning of VOICE_READ (R106). -/
def execVoiceRead (voice : Byte) (s : State) : Host.Outcome State Fault Refusal :=
  accept s 0x40 [voice] (voiceReadAnswer voice)

/-! ### FAULT_READ (R159, R169) -/

/-- The held-voice set: the FAULTED voices, bit n for Vn (R161, R169). -/
def heldSet (s : State) : Nat :=
  (allVoices.map fun v => if (s.voice v).state = .faulted then 2 ^ v.val else 0).sum

/-- The first-fault record in 13 bytes; of an empty record the kind, the detail and the timestamp have no
stated value (log 15). -/
def firstFaultBytes (s : State) : List Byte :=
  match s.faults.first with
  | some r =>
    be8 1 ++ be8 r.kind.number ++ orFF r.station ++ orFF r.voice ++ be8 (r.tag.getD 0)
      ++ be32 r.detail.toNat ++ be32 r.time.toNat
  | none => be8 0 ++ freeByte s 0 ++ [0xFF, 0xFF, 0] ++ freeBytes s 1 4 ++ freeBytes s 5 4

/-- The record of the fault capture (R159, R169). -/
def faultRecordBytes (s : State) : List Byte :=
  firstFaultBytes s ++ be16 s.faults.flags.toNat ++ be16 s.faults.count.toNat
    ++ be16 s.faults.enable.toNat ++ be16 s.faults.mask.toNat ++ be32 (heldSet s)

/-- FAULT_READ (R159). -/
def faultReadAnswer (s : State) : Answer := ⟨.ok, faultRecordBytes s, nextDraw s⟩

/-- The meaning of FAULT_READ (R159). -/
def execFaultRead (s : State) : Host.Outcome State Fault Refusal := accept s 0x50 [] faultReadAnswer

end Sys2Proof.Machine
end

