-- ==== Sys2Proof/Machine/Render.lean ====
section
/-! DEFINITION. The voice renderer and the audio port (chapter 6): the step of one voice, completions, station
sums, clip states, the TDM frame, and the sample period that makes them. -/

namespace Sys2Proof.Machine

/-! ### Glide (R111) -/

/-- A glide step toward the target by the rate: it takes the target where the distance left is not more
than the rate, or the rate has become 0; otherwise the countdown restarts as `again` (R111). -/
def Voice.glideStep (x : Voice) (rate : Nat) (again : Glide) : Voice :=
  let distance := max x.target x.base - min x.target x.base
  if rate = 0 ∨ distance ≤ rate then { x with base := x.target, glide := .stopped }
  else if x.base < x.target then { x with base := x.base + rate, glide := again }
  else { x with base := x.base - rate, glide := again }

/-- The glide rate a voice's output station has now (R109, R111). -/
def glideRate (s : State) (x : Voice) : Nat :=
  match x.outStation with
  | some i => (s.station i).settings.glide
  | none => 0

/-- The advance of the countdown at the start of a voice's step, with the glide step at 0 (R111). An
advance made by GLIDE_STEP in this period is not made twice (log 14). -/
def advanceGlide (s : State) (x : Voice) : Voice :=
  match x.glide with
  | .stopped => x
  | .running n =>
    if n ≤ 1 then x.glideStep (glideRate s x) (.running 48) else { x with glide := .running (n - 1) }
  | .advanced n => { x with glide := .running n }

/-- The bend D of a voice's output station (R112). -/
def bendFor (s : State) (x : Voice) : Int :=
  match x.outStation with
  | some i => (s.station i).breath.bend
  | none => 0

/-- The breath level L of a voice's output station (R114, R115). -/
def levelFor (s : State) (x : Voice) : Nat :=
  match x.outStation with
  | some i => (s.station i).breath.level
  | none => 0

/-- The effective pitch formed anew, and the increment where it changed (R112). -/
def formPitch (s : State) (x : Voice) : Voice :=
  let p := clampPitch ((x.base : Int) + bendFor s x)
  if p = x.eff then x else { x with eff := p, inc := incrementOf p }

/-- Step 1 of R113. -/
def pitchStep (s : State) (v : VoiceId) : State :=
  s.updVoice v fun x => formPitch s (advanceGlide s x)

/-! ### Wave reads (R114, R117) -/

/-- The address a region reads at a phase: start plus the phase divided by 2^(32 − k) (R114). -/
def readAddress (r : WaveRegion) (phase : Word) : Nat := r.start + phase.toNat / 2 ^ (32 - r.k)

/-- A read whose parity fails is taken as 0 (R117). -/
def readSample (m : Memory) (a : Nat) : Int := if m.parityFailed a then 0 else m.sample a

/-- The blend of two samples by the level b (R114). -/
def blend (a bb : Int) (b : Nat) : Int := (a * (1024 - (b : Int)) + bb * (b : Int)) / 1024

/-- The wave value w of a copy at a phase (R114). -/
def waveValue (m : Memory) (c : LayerCopy) (phase : Word) (level : Nat) : Int :=
  let a := readSample m (readAddress c.waveA.region phase)
  match c.waveB with
  | none => a
  | some b => blend a (readSample m (readAddress b.region phase)) level

/-- The wave and the address of the read that fails, wave A before wave B (R117). -/
def failedRead (m : Memory) (c : LayerCopy) (phase : Word) : Option (WaveId × Nat) :=
  if m.parityFailed (readAddress c.waveA.region phase) then
    some (c.waveA.wave, readAddress c.waveA.region phase)
  else
    match c.waveB with
    | some b =>
      if m.parityFailed (readAddress b.region phase) then
        some (b.wave, readAddress b.region phase)
      else none
    | none => none

/-- The failed read of voice v in this step (R117). -/
def voiceFailure (s : State) (v : VoiceId) : Option (WaveId × Nat) :=
  (s.voice v).copy.bind fun c => failedRead s.memory c (s.voice v).phase

/-- The report of a parity error: the voice, its output station, its tag, wave and address (R117,
R155). -/
def reportParity (s : State) (v : VoiceId) (at_ : WaveId × Nat) : State :=
  report s .waveParity (s.voice v).outStation (some v) ((keptOwner s v).map Owner.tag)
    (BitVec.ofNat 32 (at_.2 + at_.1.val * 65536))

/-! ### Output, phase, amplitude, completion (R113, R115, R116, R118) -/

/-- A voice's value v and its division by pan (R118). -/
def contribution (w : Int) (amp pan : Nat) : Pair :=
  let v := w * (amp : Int) / 65536
  ⟨v * (128 - (pan : Int)) / 128, v * (pan : Int) / 128⟩

/-- What voice v adds to its output station in step 3 of R113; a voice with no copy adds nothing. -/
def voiceOutput (s : State) (v : VoiceId) : Pair :=
  let x := s.voice v
  match x.copy with
  | some c => contribution (waveValue s.memory c x.phase (levelFor s x)) x.amp c.tone.pan
  | none => ⟨0, 0⟩

/-- The amplitude target of a voice (R115). -/
def targetOf (s : State) (x : Voice) : Nat :=
  match x.state, x.copy with
  | .sounding, some c => levelFor s x * c.tone.level / 255 * 64
  | _, _ => 0

/-- The step size of a voice (R115). -/
def stepSize (x : Voice) : Nat :=
  match x.state, x.copy with
  | .sounding, some c => c.tone.attack
  | .releasing, some c => c.tone.release
  | _, _ => 1024

/-- An amplitude moved by a step toward a target, not past it (R115). -/
def moveToward (amp target step : Nat) : Nat :=
  if amp < target then min target (amp + step) else max target (amp - step)

/-- Steps 4 and 5 of R113 and the completion of step 6, reported for a RELEASING or DRAINING voice at
amplitude 0 (R116; log 13). -/
def rampVoice (s : State) (x : Voice) : Voice :=
  let amp := moveToward x.amp (targetOf s x) (stepSize x)
  { x with
    phase := x.phase + x.inc
    ampTarget := targetOf s x
    amp := amp
    completionDue :=
      x.completionDue || ((x.state == .releasing || x.state == .draining) && amp == 0) }

/-- Steps 4 to 6 of R113. -/
def rampStep (s : State) (v : VoiceId) : State := s.updVoice v (rampVoice s)

/-! ### The step of one voice (R113, R117) -/

/-- The sums of the four stations while a sample period is rendered. -/
abbrev Sums := Vector Pair 4

/-- A contribution added to the sums of a voice's output station. -/
def addTo (sums : Sums) (station : Option StationId) (p : Pair) : Sums :=
  match station with
  | some i => sums.set i ⟨sums[i].left + p.left, sums[i].right + p.right⟩
  | none => sums

/-- Steps 3 to 6 of R113 for voice v. -/
def soundVoice (v : VoiceId) (r : State × Sums) : State × Sums :=
  (rampStep r.1 v, addTo r.2 (r.1.voice v).outStation (voiceOutput r.1 v))

/-- Steps 2 to 6 after the pitch step: a failed read is reported; where WAVE_PARITY is enabled the voice
becomes FAULTED and the step ends, where it is disabled the allocator acts and the step goes on with the
failed sample as 0 (R117). -/
def readAndSound (v : VoiceId) (r : State × Sums) : State × Sums :=
  match voiceFailure r.1 v with
  | none => soundVoice v r
  | some a =>
    let s1 := reportParity r.1 v a
    if r.1.faults.enabled .waveParity then (faultVoice s1 v, r.2)
    else soundVoice v (orphanVoice s1 v, r.2)

/-- The step of one voice (R113): a FREE or FAULTED voice is not stepped. -/
def stepVoice (r : State × Sums) (v : VoiceId) : State × Sums :=
  match (r.1.voice v).state with
  | .sounding | .releasing | .draining => readAndSound v (pitchStep r.1 v, r.2)
  | .free | .faulted => r

/-! ### Station outputs and the audio port (R118, R119, R120) -/

/-- A channel's output: the sum × gain / 16, limited to ±8,388,607 (R118). -/
def limitOutput (sum : Int) (gain : Nat) : Int :=
  clampInt (-8388607) 8388607 (sum * (gain : Int) / 16)

/-- Whether the limit has changed a channel's output (R118). -/
def saturated (sum : Int) (gain : Nat) : Bool :=
  limitOutput sum gain != sum * (gain : Int) / 16

/-- The output of station i for its sums: 0 while DISABLED (R118). -/
def stationOutput (s : State) (i : StationId) (p : Pair) : Pair :=
  if (s.station i).state = .disabled then ⟨0, 0⟩
  else
    ⟨limitOutput p.left (s.station i).settings.outGain,
      limitOutput p.right (s.station i).settings.outGain⟩

/-- The saturated channels of station i, left in bit 0 and right in bit 1: none while DISABLED (R119,
R169). -/
def clipDetail (s : State) (i : StationId) (p : Pair) : Nat :=
  if (s.station i).state = .disabled then 0
  else
    (if saturated p.left (s.station i).settings.outGain then 1 else 0)
      + (if saturated p.right (s.station i).settings.outGain then 2 else 0)

/-- The clip state of station i takes this period, and a run's first saturated period takes AUDIO_CLIP
(R119). -/
def clipStation (sums : Sums) (s : State) (i : StationId) : State :=
  let d := clipDetail s i sums[i]
  let s1 :=
    if d ≠ 0 ∧ s.audio.clip[i] = false then
      report s .audioClip (some i) none none (BitVec.ofNat 32 d)
    else s
  { s1 with audio := { s1.audio with clip := s1.audio.clip.set i (d != 0) } }

/-- A 24-bit sample in the first 24 bits of a 32-bit slot (R120). -/
def slotWord (x : Int) : Word := (BitVec.ofInt 24 x).zeroExtend 32 <<< 8

/-- The eight slots that carry these outputs: slot 2i station i left, slot 2i + 1 right (R120). -/
def slotsFor (outputs : Vector Pair 4) : Vector Word 8 :=
  #v[slotWord outputs[0].left, slotWord outputs[0].right,
     slotWord outputs[1].left, slotWord outputs[1].right,
     slotWord outputs[2].left, slotWord outputs[2].right,
     slotWord outputs[3].left, slotWord outputs[3].right]

/-- The frame sent in this period: the previous period's outputs; zeros while RST_N is asserted and during
the power-on clear (R120). -/
def frameNow (s : State) : Vector Word 8 :=
  if s.rstAsserted || s.clearRunning then Vector.replicate 8 0 else slotsFor s.audio.outputs

/-- The level of TDATA in bit time n of a frame: 8 slots of 32 bits, each most significant bit first (R120). -/
def tdataBit (frame : Vector Word 8) (n : Nat) : Bool := (frame.toList.getD (n / 32) 0).getMsbD (n % 32)

/-- The level of TDATA in the present bit time (R120). -/
def State.tdata (s : State) : Bool := tdataBit s.audio.frame s.audio.position

/-- Whether the frame-sync pulse on TFS is given in the present bit time: it marks the first bit of slot 0 (R120). -/
def State.frameSync (s : State) : Bool := s.audio.position == 0

/-- One bit time of the TDM frame, two MCLK periods, goes by for the frame position and for the replies being sent; in
the last bit time of the frame all waits for the sample period that begins the next frame (R120, R152; log 3). -/
def passBitTime (s : State) : State :=
  if s.audio.position < 255 then
    { s with
      audio := { s.audio with position := s.audio.position + 1 }
      stations := s.stations.map (Station.passPeriods 2) }
  else s

/-- The audio port in this period: the frame with the previous outputs, then the new outputs held for the
next (R120). -/
def audioStep (s : State) (sums : Sums) : State :=
  { s with
    audio :=
      { s.audio with
        frame := frameNow s
        position := 0
        outputs := Vector.ofFn fun i => stationOutput s i sums[i] } }

/-- The timers of one station count down, and n MCLK periods go by for its reply transmitter (R48, R150, R152). -/
def tickStation (n : Nat) (x : Station) : Station :=
  let y := x.passPeriods n
  { y with
    fingering := { y.fingering with settle := y.fingering.settle.tick }
    link := { y.link with silence := y.link.silence.tick } }

/-- The MCLK periods from the present bit time of the TDM frame to the end of the frame (R120). -/
def restOfFrame (s : State) : Nat := 2 * (256 - s.audio.position)

/-- The timebase and the timers advance by one sample period (R1, R48, R150; log 11), and the rest of the frame goes
by for the replies being sent (R152; log 3). -/
def tickClocks (s : State) : State :=
  { s with timebase := s.timebase + 1, stations := s.stations.map (tickStation (restOfFrame s)) }

/-- The renderer's work of a period: every voice in use is stepped, in the order given (R113). -/
def renderVoices (order : List VoiceId) (s : State) : State × Sums :=
  (inOrder order allVoices).foldl stepVoice (s, Vector.replicate 4 ⟨0, 0⟩)

/-- One sample period (R1, R113 to R120). -/
def samplePeriod (voices : List VoiceId) (stations : List StationId) (s : State) : State :=
  let r := renderVoices voices (tickClocks s)
  (inOrder stations allStations).foldl (clipStation r.2) (audioStep r.1 r.2)

/-- The meaning of SAMPLE_PERIOD. -/
def execSamplePeriod (voices : List VoiceId) (stations : List StationId) (s : State) :
    Host.Outcome State Fault Refusal :=
  .next (samplePeriod voices stations s)

/-- The meaning of GLIDE_STEP (R111): a countdown in its last sample period expires and the base pitch
moves, ahead of the rest of the voice's step (log 14). A countdown stopped here bears no mark of the advance:
one that a retune starts again before the period's SAMPLE_PERIOD falls to 47 in it, which is the model's choice
(log 14). -/
def execGlideStep (v : VoiceId) (s : State) : Host.Outcome State Fault Refusal :=
  if (s.voice v).state = .sounding ∧ (s.voice v).glide = .running 1 then
    .next (s.updVoice v fun x => x.glideStep (glideRate s x) (.advanced 48))
  else .next s

/-! ### Completions (R91, R94, R116) -/

/-- The meaning of RELEASE_COMPLETION (R94): a RELEASING voice reported at amplitude 0 is freed through the
arbiter. -/
def execReleaseCompletion (v : VoiceId) (s : State) : Host.Outcome State Fault Refusal :=
  if (s.voice v).state = .releasing ∧ (s.voice v).completionDue = true then
    .next (freeVoice s v)
  else .next s

/-- The meaning of ORPHAN_DRAIN_COMPLETION (R94): the same for a DRAINING voice bound to no claim. -/
def execOrphanDrainCompletion (v : VoiceId) (s : State) : Host.Outcome State Fault Refusal :=
  if (s.voice v).state = .draining ∧ (s.voice v).completionDue = true ∧ claimOf s v = none then
    .next (freeVoice s v)
  else .next s

/-- The meaning of DRAIN_COMPLETION (R91): a DRAINING voice bound to a claim and reported at amplitude 0 is
handed over to the claimant slot. -/
def execDrainCompletion (v : VoiceId) (s : State) : Host.Outcome State Fault Refusal :=
  match claimOf s v with
  | some c =>
    if (s.voice v).state = .draining ∧ (s.voice v).completionDue = true then .next (handOver s c)
    else .next s
  | none => .next s

end Sys2Proof.Machine
end

