-- ==== Sys2Proof/Machine/Resets.lean ====
section
/-! DEFINITION. Power-on, the end of the power-on clear, and the pin reset (section 5.8 of 00_scope.md, R26, R43,
R81, R121, R126, R140, R154, R165). -/

namespace Sys2Proof.Machine

/-- The part as power-on leaves it (R121): State.reset, with the model's own queue and read counter kept. -/
def powerOnState (s : State) : State :=
  { State.reset with pending := s.pending, draws := s.draws }

/-- The meaning of POWER_ON. -/
def execPowerOn (s : State) : Host.Outcome State Fault Refusal := .next (powerOnState s)

/-- The meaning of POWER_ON_CLEAR_END (R121): every sample is 0 with good parity and the clear is over. -/
def execPowerOnClearEnd (s : State) : Host.Outcome State Fault Refusal :=
  if s.clearRunning then .next { s with clearRunning := false, memory := [] } else .next s

/-- The part while RST_N is asserted (R1, R26, R61, R67, R81, R121, R122, R126, R154, R165): charts, templates,
waves, wave memory and the fault capture are kept, an edit in flight is abandoned, a power-on clear runs on,
and everything else is as power-on leaves it. CS_N is a pin of the control processor's. The TDM frame in
progress goes on with zeros: frames begin at the boundaries of MCLK / 512 (R120; log 18). -/
def pinResetState (s : State) : State :=
  { State.reset with
    pending := s.pending
    draws := s.draws
    clearRunning := s.clearRunning
    rstAsserted := true
    charts := s.charts.abandon
    templates := s.templates
    waves := s.waves
    memory := s.memory
    faults := s.faults
    audio := { Audio.reset with position := s.audio.position }
    port := ⟨.idle, s.port.csLow, false⟩ }

/-- The meaning of PIN_RESET. -/
def execPinReset (s : State) : Host.Outcome State Fault Refusal := .next (pinResetState s)

/-- The meaning of PIN_RESET_RELEASE (R165): the port stays in IDLE until CS_N has been seen high. -/
def execPinResetRelease (s : State) : Host.Outcome State Fault Refusal :=
  if s.rstAsserted then
    .next { s with rstAsserted := false, port := { s.port with awaitHigh := s.port.csLow } }
  else .next s

end Sys2Proof.Machine
end

