-- ==== Sys2Proof/Machine/Templates.lean ====
section
/-! DEFINITION. The template store's commands (chapter 4). -/

namespace Sys2Proof.Machine

/-- Whether a wave is defined (R122). -/
def waveDefined (s : State) (w : WaveId) : Bool := (s.waves[w]).isSome

/-- Test 3 of R69 for one layer: wave A names a defined wave. -/
def waveAOk (s : State) (l : LayerParams) : Bool :=
  match nameOf 32 l.waveA with
  | some w => waveDefined s w
  | none => false

/-- Test 4 of R69 for one layer: wave B is absent or names a defined wave. -/
def waveBOk (s : State) (l : LayerParams) : Bool :=
  match waveBOf l.waveB with
  | some none => true
  | some (some w) => waveDefined s w
  | none => false

/-- TEMPLATE_SET (R69, R70): the records at or above the layer count are ignored. -/
def templateSetAnswer (template count : Byte) (l0 l1 l2 : LayerParams) (s : State) : Answer :=
  match nameOf 16 template with
  | none => refuse s .range
  | some t =>
    let layers := [l0, l1, l2].take count.toNat
    if count.toNat = 0 ∨ 3 < count.toNat then refuse s .range
    else if !layers.all (waveAOk s) then refuse s .range
    else if !layers.all (waveBOk s) then refuse s .range
    else
      ⟨okOr (layers.any layerAdjusted), [],
        { s with templates := s.templates.set t (layers.filterMap layerOf) }⟩

/-- The meaning of TEMPLATE_SET (R69). -/
def execTemplateSet (template count : Byte) (l0 l1 l2 : LayerParams) (s : State) :
    Host.Outcome State Fault Refusal :=
  accept s 0x20 (templateSetBytes template count l0 l1 l2)
    (templateSetAnswer template count l0 l1 l2)

/-- The 38 bytes of TEMPLATE_READ: state, layer count, three records, all bytes 0 beyond the count
(R73). -/
def templateRecord (layers : List Layer) : List Byte :=
  flag8 (layers != []) ++ be8 layers.length ++ padTo 36 0 (layers.flatMap layerBytes)

/-- TEMPLATE_READ (R73). -/
def templateReadAnswer (template : Byte) (s : State) : Answer :=
  match nameOf 16 template with
  | none => refuse s .range
  | some t => ⟨.ok, templateRecord s.templates[t], s⟩

/-- The meaning of TEMPLATE_READ (R73). -/
def execTemplateRead (template : Byte) (s : State) : Host.Outcome State Fault Refusal :=
  accept s 0x21 [template] (templateReadAnswer template)

/-- TEMPLATE_CLEAR (R72). -/
def templateClearAnswer (template : Byte) (s : State) : Answer :=
  match nameOf 16 template with
  | none => refuse s .range
  | some t => ⟨.ok, [], { s with templates := s.templates.set t [] }⟩

/-- The meaning of TEMPLATE_CLEAR (R72). -/
def execTemplateClear (template : Byte) (s : State) : Host.Outcome State Fault Refusal :=
  accept s 0x22 [template] (templateClearAnswer template)

end Sys2Proof.Machine
end

