-- ==== Sys2Proof/Machine/Transactions.lean ====
section
/-! DEFINITION. The control port's own events (R163 to R165): chip select, command and parameter bytes, refusals
before the parameters, the end of a response. -/

namespace Sys2Proof.Machine

/-- s with the port in another transaction state. -/
def setPhase (s : State) (p : PortPhase) : State := { s with port := { s.port with phase := p } }

/-- The meaning of TRANSACTION_BEGIN (R163, R165): CS_N falls; the port takes a command byte next, unless
RST_N is asserted or it waits to see CS_N high. A fall needs CS_N high (log 2). -/
def execTransactionBegin (s : State) : Host.Outcome State Fault Refusal :=
  if s.port.csLow then .next s
  else if s.rstAsserted || s.port.awaitHigh then
    .next { s with port := { s.port with csLow := true } }
  else .next { s with port := { s.port with csLow := true, phase := .command } }

/-- PORT_ABORT for a command discarded in PARAMETERS, with its byte and the parameter bytes taken (R165,
R169), the other bits of the detail 0 (log 34); no other phase takes a fault. -/
def abortPort (s : State) : State :=
  match s.port.phase with
  | .parameters cmd taken _ =>
    report s .portAbort none none none (BitVec.ofNat 32 (cmd.toNat + taken.length * 256))
  | .idle | .command | .response _ _ | .ignore _ => s

/-- The meaning of TRANSACTION_END (R163, R165): CS_N rises, the port returns to IDLE, a command in assembly is
discarded. A rise needs CS_N low (log 2). -/
def execTransactionEnd (s : State) : Host.Outcome State Fault Refusal :=
  if s.port.csLow then .next { abortPort s with port := ⟨.idle, false, false⟩ } else .next s

/-- The meaning of UNKNOWN_COMMAND_BYTE (R165): in COMMAND, the clear over, a byte that names no command is
answered UNKNOWN. -/
def execUnknownCommandByte (b : Byte) (s : State) : Host.Outcome State Fault Refusal :=
  if s.port.phase = .command ∧ s.clearRunning = false ∧ paramCount b = none then
    .next (setPhase s (.ignore (some .unknown)))
  else .next s

/-- The meaning of NOT_READY (R165): in COMMAND during the power-on clear every command byte, known or not, is
answered NOT_READY. -/
def execNotReady (_b : Byte) (s : State) : Host.Outcome State Fault Refusal :=
  if s.port.phase = .command ∧ s.clearRunning = true then
    .next (setPhase s (.ignore (some .notReady)))
  else .next s

/-- A byte taken in COMMAND or PARAMETERS that is not a command's last (R163): the port enters PARAMETERS, or
stays there with the byte taken. None where the byte is a command's last, unknown or refused. -/
def takeByte (s : State) (b : Byte) : Option PortPhase :=
  match s.port.phase with
  | .command =>
    match paramCount b with
    | some n => if s.clearRunning || n == 0 then none else some (.parameters b [] n)
    | none => none
  | .parameters cmd taken expected =>
    let expected' := expectedAfter cmd taken expected b
    if taken.length + 1 < expected' then some (.parameters cmd (taken ++ [b]) expected') else none
  | .idle | .response _ _ | .ignore _ => none

/-- The row that a byte taken from MOSI stands for (R163 to R166): in COMMAND and in PARAMETERS the acceptance of
the command it completes, PARAMETER_BYTE where more bytes are to come, and in COMMAND NOT_READY during the
power-on clear and UNKNOWN_COMMAND_BYTE where it names no command. None where the port takes no byte. -/
def State.rowOfByte (s : State) (b : Byte) : Option Instr :=
  match s.port.phase with
  | .command =>
    if s.clearRunning then some (.notReady b)
    else
      match paramCount b with
      | none => some (.unknownCommandByte b)
      | some 0 => commandOf b []
      | some (_ + 1) => some (.parameterByte b)
  | .parameters cmd taken expected =>
    if taken.length + 1 < expectedAfter cmd taken expected b then some (.parameterByte b)
    else commandOf cmd (taken ++ [b])
  | .idle | .response _ _ | .ignore _ => none

/-- The meaning of PARAMETER_BYTE (R163). -/
def execParameterByte (b : Byte) (s : State) : Host.Outcome State Fault Refusal :=
  match takeByte s b with
  | some p => .next (setPhase s p)
  | none => .next s

/-- The meaning of RESPONSE_END (R164): the record has been shifted out and the port enters IGNORE. -/
def execResponseEnd (s : State) : Host.Outcome State Fault Refusal :=
  match s.port.phase with
  | .response _ _ => .next (setPhase s (.ignore none))
  | .idle | .command | .parameters _ _ _ | .ignore _ => .next s

end Sys2Proof.Machine
end

