-- ==== Sys2Proof/Machine/Waves.lean ====
section
/-! DEFINITION. The wave memory's commands and the wave descriptors (section 6.6). -/

namespace Sys2Proof.Machine

/-- A layer names a wave as wave A or wave B (R74). -/
def Layer.names (l : Layer) (w : WaveId) : Bool := l.waveA == w || l.waveB == some w

/-- A layer copy names a wave (R123). -/
def LayerCopy.names (c : LayerCopy) (w : WaveId) : Bool :=
  c.waveA.wave == w || c.waveB.any fun b => b.wave == w

/-- A voice in SOUNDING, RELEASING or DRAINING whose copy names the wave (R123). -/
def voiceNames (s : State) (w : WaveId) (v : VoiceId) : Bool :=
  match (s.voice v).state with
  | .sounding | .releasing | .draining => (s.voice v).copy.any fun c => c.names w
  | .free | .faulted => false

/-- Whether a wave is referred to (R74, R123). -/
def waveReferred (s : State) (w : WaveId) : Bool :=
  s.templates.toList.any (fun layers => layers.any fun l => l.names w)
    || allVoices.any (voiceNames s w)

/-- WAVE_DEFINE: the four tests of R122 in order. -/
def waveDefineAnswer (wave : Byte) (start : Half) (k : Byte) (s : State) : Answer :=
  match nameOf 32 wave with
  | none => refuse s .range
  | some w =>
    if k.toNat < 8 ∨ 12 < k.toNat then refuse s .range
    else if 65535 < start.toNat + 2 ^ k.toNat - 1 then refuse s .range
    else if (s.waves[w]).isSome && waveReferred s w then refuse s .inUse
    else ⟨.ok, [], { s with waves := s.waves.set w (some ⟨start.toNat, k.toNat⟩) }⟩

/-- The meaning of WAVE_DEFINE (R122). -/
def execWaveDefine (wave : Byte) (start : Half) (k : Byte) (s : State) :
    Host.Outcome State Fault Refusal :=
  accept s 0x30 (wave :: (be16 start.toNat ++ [k])) (waveDefineAnswer wave start k)

/-- WAVE_DELETE (R123). -/
def waveDeleteAnswer (wave : Byte) (s : State) : Answer :=
  match nameOf 32 wave with
  | none => refuse s .range
  | some w =>
    if (s.waves[w]).isSome && waveReferred s w then refuse s .inUse
    else ⟨.ok, [], { s with waves := s.waves.set w none }⟩

/-- The meaning of WAVE_DELETE (R123). -/
def execWaveDelete (wave : Byte) (s : State) : Host.Outcome State Fault Refusal :=
  accept s 0x33 [wave] (waveDeleteAnswer wave)

/-- Whether a run is refused: a count of 0 or above 64, or a run past 65,535 (R124, R125). -/
def runRefused (start : Half) (count : Byte) : Bool :=
  decide (count.toNat = 0 ∨ 64 < count.toNat ∨ 65535 < start.toNat + count.toNat - 1)

/-- WAVE_WRITE (R124): the run is written in one event, each sample with fresh parity. -/
def waveWriteAnswer (start : Half) (count : Byte) (samples : List Half) (s : State) : Answer :=
  if runRefused start count then refuse s .range
  else ⟨.ok, [], { s with memory := s.memory.writeRun start.toNat samples }⟩

/-- The meaning of WAVE_WRITE (R124). An operand list that is not as long as the count byte says is no
command of the wire (R163; log 2). -/
def execWaveWrite (start : Half) (count : Byte) (samples : List Half) (s : State) :
    Host.Outcome State Fault Refusal :=
  if (Instr.waveWrite start count samples).wellFormed then
    accept s 0x31 (waveWriteBytes start count samples) (waveWriteAnswer start count samples)
  else .next s

/-- The three bytes of WAVE_READ's response for one sample (R125, R169). -/
def sampleRecord (m : Memory) (a : Nat) : List Byte :=
  be16 (m.sampleBits a).toNat ++ flag8 (m.parityFailed a)

/-- WAVE_READ (R125). -/
def waveReadAnswer (start : Half) (count : Byte) (s : State) : Answer :=
  if runRefused start count then refuse s .range
  else
    ⟨.ok, (List.range count.toNat).flatMap fun n => sampleRecord s.memory (start.toNat + n), s⟩

/-- The meaning of WAVE_READ (R125). -/
def execWaveRead (start : Half) (count : Byte) (s : State) : Host.Outcome State Fault Refusal :=
  accept s 0x32 (be16 start.toNat ++ [count]) (waveReadAnswer start count)

end Sys2Proof.Machine
end

