-- ==== Sys2Proof/Machine/Dispatch.lean ====
section
/-! DEFINITION. One arm per row of the table. -/

namespace Sys2Proof.Machine

def exec (i : Instr) (s : State) : Host.Outcome State Fault Refusal :=
  match i with
  | .powerOn => Sys2Proof.Machine.execPowerOn s
  | .powerOnClearEnd => Sys2Proof.Machine.execPowerOnClearEnd s
  | .pinReset => Sys2Proof.Machine.execPinReset s
  | .transactionBegin => Sys2Proof.Machine.execTransactionBegin s
  | .transactionEnd => Sys2Proof.Machine.execTransactionEnd s
  | .unknownCommandByte b => Sys2Proof.Machine.execUnknownCommandByte b s
  | .statusRead => Sys2Proof.Machine.execStatusRead s
  | .stationRead station clear => Sys2Proof.Machine.execStationRead station clear s
  | .stationSet p => Sys2Proof.Machine.execStationSet p s
  | .keysenseSet station senses => Sys2Proof.Machine.execKeysenseSet station senses s
  | .stationRestart station => Sys2Proof.Machine.execStationRestart station s
  | .panic => Sys2Proof.Machine.execPanic s
  | .chartRead chart pos => Sys2Proof.Machine.execChartRead chart pos s
  | .chartAppend chart e => Sys2Proof.Machine.execChartAppend chart e s
  | .chartInsert chart pos e => Sys2Proof.Machine.execChartInsert chart pos e s
  | .chartReplace chart pos e => Sys2Proof.Machine.execChartReplace chart pos e s
  | .chartRemove chart pos => Sys2Proof.Machine.execChartRemove chart pos s
  | .chartClear chart => Sys2Proof.Machine.execChartClear chart s
  | .chartInfo => Sys2Proof.Machine.execChartInfo s
  | .editCompletion order => Sys2Proof.Machine.execEditCompletion order s
  | .templateSet template count l0 l1 l2 => Sys2Proof.Machine.execTemplateSet template count l0 l1 l2 s
  | .templateRead template => Sys2Proof.Machine.execTemplateRead template s
  | .templateClear template => Sys2Proof.Machine.execTemplateClear template s
  | .waveDefine wave start k => Sys2Proof.Machine.execWaveDefine wave start k s
  | .waveWrite start count samples => Sys2Proof.Machine.execWaveWrite start count samples s
  | .waveRead start count => Sys2Proof.Machine.execWaveRead start count s
  | .waveDelete wave => Sys2Proof.Machine.execWaveDelete wave s
  | .voiceRead voice => Sys2Proof.Machine.execVoiceRead voice s
  | .faultRead => Sys2Proof.Machine.execFaultRead s
  | .faultClear count => Sys2Proof.Machine.execFaultClear count s
  | .voiceRetire voice => Sys2Proof.Machine.execVoiceRetire voice s
  | .faultPolicy enable mask => Sys2Proof.Machine.execFaultPolicy enable mask s
  | .character j start data mark stop => Sys2Proof.Machine.execCharacter j start data mark stop s
  | .sync j intervals stop => Sys2Proof.Machine.execSync j intervals stop s
  | .syncTaken j => Sys2Proof.Machine.execSyncTaken j s
  | .hello j => Sys2Proof.Machine.execHello j s
  | .play j => Sys2Proof.Machine.execPlay j s
  | .hush j => Sys2Proof.Machine.execHush j s
  | .replyEnd j => Sys2Proof.Machine.execReplyEnd j s
  | .settleExpiry j => Sys2Proof.Machine.execSettleExpiry j s
  | .silenceTimeout j => Sys2Proof.Machine.execSilenceTimeout j s
  | .samplePeriod voices stations => Sys2Proof.Machine.execSamplePeriod voices stations s
  | .glideStep v => Sys2Proof.Machine.execGlideStep v s
  | .releaseCompletion v => Sys2Proof.Machine.execReleaseCompletion v s
  | .orphanDrainCompletion v => Sys2Proof.Machine.execOrphanDrainCompletion v s
  | .drainCompletion v => Sys2Proof.Machine.execDrainCompletion v s
  | .pinResetRelease => Sys2Proof.Machine.execPinResetRelease s
  | .parameterByte b => Sys2Proof.Machine.execParameterByte b s
  | .notReady b => Sys2Proof.Machine.execNotReady b s
  | .responseEnd => Sys2Proof.Machine.execResponseEnd s

end Sys2Proof.Machine
end

