-- ==== Sys2Proof/Safety.lean ====
section
/-! DEFINITION. What holds of the part at every step's boundary, as predicates of a state, and what it means that
one state differs from another in some places only. The statements of Certificates/Slice0 are written with these. -/

namespace Sys2Proof.Machine

/-! ### Invariants -/

/-- A sum over the eight charts. -/
def overCharts (f : ChartId → Nat) : Nat := f 0 + f 1 + f 2 + f 3 + f 4 + f 5 + f 6 + f 7

/-- What the edit record says of the lengths: with no edit in flight each length is its list's; the chart under
edit has the length the edit produces, and the work count lies within R37's bounds (R25, R31, R37). -/
def ChartStore.editOk (x : ChartStore) : Prop :=
  match x.edit with
  | none => ∀ c : ChartId, x.lengths[c] = x.lists[c].length
  | some e =>
    (1 ≤ e.work ∧ e.work ≤ 128) ∧ x.lengths[e.chart] = e.result.length
      ∧ ∀ c : ChartId, c ≠ e.chart → x.lengths[c] = x.lists[c].length

/-- The chart store's counts (R25): free cells and lengths make 512, before an edit in flight as after it, and no
chart has more than 128 entries. -/
def ChartStore.ok (x : ChartStore) : Prop :=
  x.freeCells + overCharts (fun c => x.lengths[c]) = 512
    ∧ overCharts (fun c => x.lists[c].length) ≤ 512
    ∧ (∀ c : ChartId, x.lengths[c] ≤ 128 ∧ x.lists[c].length ≤ 128)
    ∧ x.editOk

/-- The voices of the claim table. -/
def claimedVoices (s : State) : List VoiceId := s.claims.map Claim.voice

/-- The pool's lists (R81, R90): the free list holds exactly the FREE voices, each once, and no voice stands in two
entries of the claim table, all of which name DRAINING voices. -/
def PoolOk (s : State) : Prop :=
  s.freeList.Nodup
    ∧ (∀ v : VoiceId, v ∈ s.freeList ↔ (s.voice v).state = .free)
    ∧ (claimedVoices s).Nodup
    ∧ ∀ v ∈ claimedVoices s, (s.voice v).state = .draining

/-- The slots of the current notes and the lists that name them (R62, R80, R90, R93): a note has at most one slot of a
layer; every entry of the claim table names a CLAIMING slot with the entry's voice, every entry of the starve list a
STARVED slot, no slot twice; every CLAIMING and every STARVED slot has its entry; and a voice is SOUNDING for a slot
exactly where the slot is VOICED with it. -/
def SlotsListed (s : State) : Prop :=
  (∀ (i : StationId) (n : NoteRecord), s.note i = some n → (n.slots.map Slot.layer).Nodup)
    ∧ (∀ c ∈ s.claims, ∃ x, slotOf s c.station c.tag c.layer = some x ∧ x.state = .claiming c.voice)
    ∧ (∀ e ∈ s.starve, ∃ x, slotOf s e.station e.tag e.layer = some x ∧ x.state = .starved)
    ∧ ((s.claims.map fun c => (c.station, c.tag, c.layer)).Nodup ∧ s.starve.Nodup)
    ∧ (∀ (i : StationId) (n : NoteRecord) (x : Slot), s.note i = some n → x ∈ n.slots →
        (∀ v, x.state = .claiming v → ⟨i, n.tag, x.layer, v⟩ ∈ s.claims)
          ∧ (x.state = .starved → ⟨i, n.tag, x.layer⟩ ∈ s.starve)
          ∧ ∀ v, x.state = .voiced v →
              (s.voice v).state = .sounding ∧ (s.voice v).owner = some ⟨i, n.tag, x.layer⟩)
    ∧ ∀ v : VoiceId, (s.voice v).state = .sounding →
        ∃ o x, (s.voice v).owner = some o ∧ slotOf s o.station o.tag o.layer = some x
          ∧ x.state = .voiced v

/-- Reserves and caps within their ranges, the reserves together no more than the voices (R83). -/
def ReservesOk (s : State) : Prop :=
  (allStations.map fun i => (s.station i).settings.reserve).sum ≤ 32
    ∧ ∀ i : StationId,
        (s.station i).settings.reserve ≤ (s.station i).settings.cap
          ∧ 1 ≤ (s.station i).settings.cap ∧ (s.station i).settings.cap ≤ 32

/-- No station counts more voices than its cap (R82). -/
def CapsHold (s : State) : Prop := ∀ i : StationId, stationCount s i ≤ (s.station i).settings.cap

/-- The enable setting and the state DISABLED go together (R127, R136), and a DISABLED station has no SYNC waiting
(the model's, log 20). -/
def Station.enableOk (x : Station) : Prop :=
  (x.settings.enable = false ↔ x.state = .disabled) ∧ (x.state = .disabled → x.syncHanded = false)

/-- The fingering unit as leaving LIVE puts it back (R59): everything but the miss counter at rest. -/
def Fingering.atRest (g : Fingering) : Fingering := { Fingering.reset with misses := g.misses }

/-- Outside LIVE the breath state is at rest, the fingering unit put back and no work held (R22, R40, R59). -/
def Station.restOk (x : Station) : Prop :=
  x.state ≠ .live →
    x.breath = x.breath.atRest ∧ x.fingering = x.fingering.atRest ∧ x.stall = none

/-- A station's lifecycle at rest where it must be. -/
def LifecycleOk (s : State) : Prop :=
  ∀ i : StationId, (s.station i).enableOk ∧ (s.station i).restOk

/-- A DISABLED station's clip state shows unsaturated (R119). -/
def ClipsOk (s : State) : Prop :=
  ∀ i : StationId, (s.station i).state = .disabled → s.audio.clip[i] = false

/-- A note, or an onset waiting for one, only while the station is LIVE with GATE set (R62, R56). -/
def Station.gateOk (x : Station) : Prop :=
  x.fingering.note.isSome = true ∨ x.fingering.onsetPending = true →
    x.state = .live ∧ x.breath.ind.gate = true

/-- Every station's note is gated. -/
def NotesGated (s : State) : Prop := ∀ i : StationId, (s.station i).gateOk

/-- The published level within the ceiling and the bend within the bend range, both settings within theirs (R4,
R14, R18). -/
def Station.breathOk (x : Station) : Prop :=
  (1 ≤ x.settings.ceiling ∧ x.settings.ceiling ≤ 1023 ∧ x.breath.level ≤ x.settings.ceiling)
    ∧ x.settings.bendRange ≤ 768 ∧ x.breath.bend.natAbs ≤ x.settings.bendRange

/-- Every station's published breath state is within its limits. -/
def BreathOk (s : State) : Prop := ∀ i : StationId, (s.station i).breathOk

/-- The silence timer is stopped exactly outside CALIBRATING and LIVE, and holds at most 1152 (R126, R150). -/
def Station.silenceOk (x : Station) : Prop :=
  (x.link.silence = .stopped ↔ x.state ≠ .calibrating ∧ x.state ≠ .live)
    ∧ ∀ n, x.link.silence = .running n → 1 ≤ n ∧ n ≤ 1152

/-- Every station's silence timer goes with its state. -/
def SilenceOk (s : State) : Prop := ∀ i : StationId, (s.station i).silenceOk

/-- The tag counter holds a tag (R61). -/
def TagsOk (s : State) : Prop :=
  (1 ≤ s.tagCounter ∧ s.tagCounter ≤ 255)
    ∧ ∀ i : StationId, ∀ n, s.note i = some n → 1 ≤ n.tag ∧ n.tag ≤ 255

/-- The wave memory is in canonical form. -/
def MemoryOk (s : State) : Prop := s.memory.wf = true

/-- The three sets of the fault capture name no kind but 1 to 10 (R154). -/
def FaultSetsOk (s : State) : Prop :=
  ∀ n, s.faults.flags.getLsbD n = true ∨ s.faults.enable.getLsbD n = true
      ∨ s.faults.mask.getLsbD n = true → 1 ≤ n ∧ n ≤ 10

/-- The TDM frame position is one of the 256 bit times of a frame (R120). -/
def FramePositionOk (s : State) : Prop := s.audio.position < 256

/-- What a receiver with this bit time holds of its line (R141): a character in assembly, begun by a start bit of 0
and not yet at the middle of its stop bit, has the bits whose moments have come; and the wait for a 1 has had a
sample within the last bit time. -/
def CharacterAssembly.inRange (bitTime : Option Nat) : CharacterAssembly → Prop
  | .absent => True
  | .assembling elapsed bits => ∃ T, bitTime = some T ∧ elapsed < 10 * T + T / 2
      ∧ (∀ n, n < bits.length ↔ n * T + T / 2 ≤ elapsed) ∧ bits[0]? ≠ some true
  | .heldLow elapsed => ∃ T, bitTime = some T ∧ elapsed < T

/-- What a link receiver holds lies within its ranges (R140, R141, R144, R148): the bit time 8 to 99; a character in
assembly at that bit time; a frame in assembly with its kind's length, not yet full; sequence numbers 0 to 15, with a
last one wherever the window is not open; of a reply being sent one of its four characters in transmission, begun at most eleven bit times ago,
and eleven only for the last that is sent; counters up to 65,535. -/
def Link.inRange (l : Link) : Prop :=
  (∀ T, l.bitTime = some T → 8 ≤ T ∧ T ≤ 99) ∧ l.character.inRange l.bitTime
    ∧ (∀ a, l.assembly = some a →
        a.seq < 16 ∧ a.expected = (match a.kind with | .hello => 5 | .play => 10 | .hush => 2)
          ∧ 1 ≤ a.chars.length ∧ a.chars.length < a.expected)
    ∧ (∀ f, l.buffer = some f → f.seq < 16) ∧ (∀ q, l.lastSeq = some q → q < 16)
    ∧ (l.windowOpen = false → l.lastSeq ≠ none)
    ∧ (∀ x, l.sending = some x → x.position < 4
        ∧ ∀ T, x.bitTime = some T → (8 ≤ T ∧ T ≤ 99) ∧ x.elapsed ≤ 11 * T
            ∧ (x.elapsed = 11 * T → x.cut = true ∨ x.position = 3))
    ∧ (l.counters.missed ≤ 65535 ∧ l.counters.stale ≤ 65535 ∧ l.counters.framing ≤ 65535
      ∧ l.counters.check ≤ 65535 ∧ l.counters.protocol ≤ 65535)

/-- Every station's link receiver is within its ranges. -/
def LinksOk (s : State) : Prop := ∀ i : StationId, (s.station i).link.inRange

/-- The fields of a layer lie within their ranges (R68, R70). -/
def Tone.inRange (t : Tone) : Prop :=
  (-48 ≤ t.transpose ∧ t.transpose ≤ 48) ∧ (-63 ≤ t.fine ∧ t.fine ≤ 63) ∧ t.level ≤ 255
    ∧ t.pan ≤ 128 ∧ (1 ≤ t.attack ∧ t.attack ≤ 4095) ∧ 1 ≤ t.release ∧ t.release ≤ 4095

/-- A region lies within the wave memory (R122). -/
def WaveRegion.inRange (r : WaveRegion) : Prop := (8 ≤ r.k ∧ r.k ≤ 12) ∧ r.start + 2 ^ r.k ≤ 65536

/-- Every defined wave names a region within the memory (R122), and every template has at most three layers, whose
waves are defined and whose fields lie within their ranges (R67, R68, R74). -/
def StoresOk (s : State) : Prop :=
  (∀ (w : WaveId) (r : WaveRegion), s.waves[w] = some r → r.inRange)
    ∧ ∀ n : TemplateId, s.templates[n].length ≤ 3
        ∧ ∀ l ∈ s.templates[n], s.waves[l.waveA] ≠ none
            ∧ (∀ b, l.waveB = some b → s.waves[b] ≠ none) ∧ l.tone.inRange

/-- A layer copy's fields lie within their ranges and its regions within the wave memory (R68, R75, R77). -/
def LayerCopy.inRange (c : LayerCopy) : Prop :=
  c.tone.inRange ∧ c.waveA.region.inRange ∧ ∀ b, c.waveB = some b → b.region.inRange

/-- A voice record lies within its ranges (R108): pitches, countdown, amplitude and its target; the increment is that
of the effective pitch (R112); a FREE voice has no record; the layer copy lies within its ranges (R77). -/
def Voice.inRange (x : Voice) : Prop :=
  (x.base ≤ 8191 ∧ x.target ≤ 8191 ∧ x.eff ≤ 8191)
    ∧ (x.amp ≤ 65472 ∧ x.ampTarget ≤ 65472)
    ∧ (∀ n, x.glide = .running n ∨ x.glide = .advanced n → 1 ≤ n ∧ n ≤ 48)
    ∧ (x.state ≠ .free → x.inc = incrementOf x.eff)
    ∧ (x.state = .free → x = Voice.free)
    ∧ ∀ c, x.copy = some c → c.inRange

/-- Every voice record lies within its ranges, and so does every layer copy that a slot could give a voice. -/
def VoicesOk (s : State) : Prop :=
  (∀ v : VoiceId, (s.voice v).inRange)
    ∧ ∀ (i : StationId) (n : NoteRecord) (x : Slot), s.note i = some n → x ∈ n.slots → x.copy.inRange

/-! ### Words of the rules -/

/-- An entry as carried passes the refusals of R28: its pattern lies within its mask, and its register key is a key
or absent. -/
def EntryPasses (e : EntryParams) : Prop :=
  (∀ k : KeyId, e.pattern.getLsbD k.val = true → e.mask.getLsbD k.val = true)
    ∧ (e.regKey.toNat ≤ 31 ∨ e.regKey = 0xFF)

/-- A field of an entry as carried is clamped (R28). -/
def EntryClamps (e : EntryParams) : Prop :=
  127 < e.note.toNat ∨ 24 < e.step.toNat ∨ 1 < e.breathReg.toNat

/-- The entry x is the one stored for the carried entry e (R27, R28). -/
def StoredFrom (e : EntryParams) (x : Entry) : Prop :=
  x.mask = e.mask ∧ x.pattern = e.pattern ∧ x.gives.note = min 127 e.note.toNat
    ∧ x.gives.regKey.map Fin.val = (if e.regKey.toNat ≤ 31 then some e.regKey.toNat else none)
    ∧ x.gives.step = min 24 e.step.toNat ∧ x.gives.breathReg = decide (e.breathReg.toNat ≠ 0)

/-- An entry fits a snapshot: every key of its pattern pressed, every other key of its mask released (R29). -/
def FitsKeys (e : Entry) (snapshot : Word) : Prop :=
  (∀ k : KeyId, e.pattern.getLsbD k.val = true → snapshot.getLsbD k.val = true)
    ∧ ∀ k : KeyId, e.mask.getLsbD k.val = true → e.pattern.getLsbD k.val = false →
        snapshot.getLsbD k.val = false

/-- A layer record's wave A names a defined wave, and its wave B is absent or names one (R69). -/
def WavesPass (s : State) (l : LayerParams) : Prop :=
  (∃ a : WaveId, l.waveA.toNat = a.val ∧ s.waves[a] ≠ none)
    ∧ (l.waveB = 0xFF ∨ ∃ b : WaveId, l.waveB.toNat = b.val ∧ s.waves[b] ≠ none)

/-- A field of a layer record is adjusted (R70). -/
def LayerAdjusts (l : LayerParams) : Prop :=
  l.transpose.toInt < -48 ∨ 48 < l.transpose.toInt ∨ l.fine.toInt < -63 ∨ 63 < l.fine.toInt
    ∨ 128 < l.pan.toNat ∨ 16 ≤ l.cond.toNat ∨ 1 < l.sense.toNat ∨ l.attack.toNat = 0
    ∨ 4095 < l.attack.toNat ∨ l.release.toNat = 0 ∨ 4095 < l.release.toNat

/-- The layer x is the one stored for the layer record l (R69, R70). -/
def LayerStoredFrom (l : LayerParams) (x : Layer) : Prop :=
  x.waveA.val = l.waveA.toNat
    ∧ x.waveB.map Fin.val = (if l.waveB = 0xFF then none else some l.waveB.toNat)
    ∧ x.tone.transpose = max (-48) (min 48 l.transpose.toInt)
    ∧ x.tone.fine = max (-63) (min 63 l.fine.toInt)
    ∧ x.tone.level = l.level.toNat ∧ x.tone.pan = min 128 l.pan.toNat
    ∧ x.tone.mask = l.cond.setWidth 4
    ∧ x.tone.sense = (if l.sense.toNat = 0 then .any else .noneOf)
    ∧ x.tone.attack = (if l.attack.toNat = 0 then 1 else min 4095 l.attack.toNat)
    ∧ x.tone.release = (if l.release.toNat = 0 then 1 else min 4095 l.release.toNat)

/-- A wave is referred to: a defined template's layer names it, or the copy of a SOUNDING, RELEASING or DRAINING
voice does (R74, R123). -/
def RefersTo (s : State) (w : WaveId) : Prop :=
  (∃ n : TemplateId, ∃ l ∈ s.templates[n], l.waveA = w ∨ l.waveB = some w)
    ∨ ∃ v : VoiceId,
        ((s.voice v).state = .sounding ∨ (s.voice v).state = .releasing
          ∨ (s.voice v).state = .draining)
        ∧ ∃ c, (s.voice v).copy = some c
            ∧ (c.waveA.wave = w ∨ ∃ b, c.waveB = some b ∧ b.wave = w)

/-- A sum over the four stations. -/
def overStations (f : StationId → Nat) : Nat := f 0 + f 1 + f 2 + f 3

/-- Station i passes the free-voice test with f free voices (R84). -/
def PassesFreeTest (s : State) (i : StationId) (f : Nat) : Prop :=
  stationCount s i < (s.station i).settings.cap
    ∧ (stationCount s i < (s.station i).settings.reserve
      ∨ overStations (fun t =>
          if t = i then 0 else (s.station t).settings.reserve - stationCount s t) < f)

/-- Voice v of t is as R86, R91, R95 and R108 leave a voice given to a slot of s, and the slot is VOICED with it. -/
def GivenTo (s t : State) (v : VoiceId) (i : StationId) (tag : Nat) (layer : LayerId) : Prop :=
  (t.voice v).state = .sounding ∧ (t.voice v).owner = some ⟨i, tag, layer⟩
    ∧ (t.voice v).claimTime = s.timebase ∧ (t.voice v).amp = 0 ∧ (t.voice v).phase = 0
    ∧ (t.voice v).outStation = some i ∧ (t.voice v).glide = .stopped
    ∧ ∀ n x, s.note i = some n → slotOf s i tag layer = some x →
        (t.voice v).copy = some x.copy
          ∧ ((t.voice v).base : Int) =
              max 0 (min 8191 ((n.number : Int) * 64 + x.copy.tone.transpose * 64 + x.copy.tone.fine
                + (s.station i).settings.transpose * 64))
          ∧ (t.voice v).target = (t.voice v).base
          ∧ ((t.voice v).eff : Int) =
              max 0 (min 8191 (((t.voice v).base : Int) + (s.station i).breath.bend))
          ∧ (t.voice v).inc = incrementOf (t.voice v).eff
          ∧ slotOf t i tag layer = some { x with state := .voiced v }

/-- Every voice but v is the same. -/
def SameOtherVoices (s t : State) (v : VoiceId) : Prop := ∀ u, u ≠ v → t.voice u = s.voice u

/-- How the free-voice arbiter leaves the part once voice v has left its state and its count (R95): the first entry
of the starve list whose station passes the test, v counted as free, receives it; where none passes, v is FREE at
the tail of the free list. -/
def PassedOn (s t : State) (v : VoiceId) : Prop :=
  let s1 := s.updVoice v fun _ => Voice.free
  let f := s.freeList.length + 1
  ((∀ e ∈ s.starve, ¬ PassesFreeTest s1 e.station f) → t = { s1 with freeList := s.freeList ++ [v] })
    ∧ ∀ (before after : List Starved) (e : Starved), s.starve = before ++ e :: after →
        (∀ x ∈ before, ¬ PassesFreeTest s1 x.station f) → PassesFreeTest s1 e.station f →
          GivenTo s t v e.station e.tag e.layer ∧ t.starve = before ++ after
            ∧ t.freeList = s.freeList ∧ t.claims = s.claims ∧ SameOtherVoices s t v
            ∧ t.faults = s.faults

/-- Tier (a) of R87: RELEASING voices owned by station i. -/
def TierA (s : State) (i : StationId) (v : VoiceId) : Prop :=
  (s.voice v).state = .releasing ∧ ∃ o, (s.voice v).owner = some o ∧ o.station = i

/-- Tier (b) of R87: RELEASING voices owned by another station over its reserve. -/
def TierB (s : State) (i : StationId) (v : VoiceId) : Prop :=
  (s.voice v).state = .releasing
    ∧ ∃ o, (s.voice v).owner = some o ∧ o.station ≠ i
        ∧ (s.station o.station).settings.reserve < stationCount s o.station

/-- Tier (c) of R87: SOUNDING voices of station i's note whose layer index is greater. -/
def TierC (s : State) (i : StationId) (tag : Nat) (layer : LayerId) (v : VoiceId) : Prop :=
  (s.voice v).state = .sounding
    ∧ ∃ o, (s.voice v).owner = some o ∧ o.station = i ∧ o.tag = tag ∧ layer < o.layer

/-- Tier (d) of R87: while station i is under its reserve, SOUNDING voices owned by another station over its. -/
def TierD (s : State) (i : StationId) (v : VoiceId) : Prop :=
  stationCount s i < (s.station i).settings.reserve ∧ (s.voice v).state = .sounding
    ∧ ∃ o, (s.voice v).owner = some o ∧ o.station ≠ i
        ∧ (s.station o.station).settings.reserve < stationCount s o.station

/-- v stands before w by earliest release start, then lower voice number (R80, R87). -/
def ReleasedBefore (s : State) (v w : VoiceId) : Prop :=
  (s.timebase - (s.voice w).releaseStart).toNat < (s.timebase - (s.voice v).releaseStart).toNat
    ∨ ((s.voice w).releaseStart = (s.voice v).releaseStart ∧ v < w)

/-- v stands before w by highest layer index, then earliest claim time, then lower voice number (R80, R87). -/
def LayerBefore (s : State) (v w : VoiceId) : Prop :=
  ∀ o p, (s.voice v).owner = some o → (s.voice w).owner = some p →
    p.layer < o.layer
      ∨ (p.layer = o.layer
        ∧ ((s.timebase - (s.voice w).claimTime).toNat < (s.timebase - (s.voice v).claimTime).toNat
          ∨ ((s.voice w).claimTime = (s.voice v).claimTime ∧ v < w)))

/-- v is the first candidate of a tier in an order. -/
def FirstIn (tier : VoiceId → Prop) (before : VoiceId → VoiceId → Prop) (v : VoiceId) : Prop :=
  tier v ∧ ∀ w, tier w → w ≠ v → before v w

/-- No voice is a candidate of a tier. -/
def NoneIn (tier : VoiceId → Prop) : Prop := ∀ w, ¬ tier w

/-- Voice v is the victim of a claim that no free voice serves: at its cap a station has its own tiers (a) and (c)
(R85), below it all four (R87). -/
def VictimOf (s : State) (i : StationId) (tag : Nat) (layer : LayerId) (v : VoiceId) : Prop :=
  let below := stationCount s i < (s.station i).settings.cap
  FirstIn (TierA s i) (ReleasedBefore s) v
    ∨ (NoneIn (TierA s i) ∧ below ∧ FirstIn (TierB s i) (ReleasedBefore s) v)
    ∨ (NoneIn (TierA s i) ∧ (below → NoneIn (TierB s i))
        ∧ FirstIn (TierC s i tag layer) (LayerBefore s) v)
    ∨ (NoneIn (TierA s i) ∧ below ∧ NoneIn (TierB s i) ∧ NoneIn (TierC s i tag layer)
        ∧ FirstIn (TierD s i) (LayerBefore s) v)

/-- Voice v drains from now on with the copy, the base pitch, the phase and the amplitude it had; a voice that was
not DRAINING has still to complete its drain in a step of its own (R116). -/
def DrainsFrom (x y : Voice) : Prop :=
  y.state = .draining ∧ y.owner = none ∧ y.copy = x.copy ∧ y.base = x.base ∧ y.target = x.base
    ∧ y.glide = .stopped ∧ y.amp = x.amp ∧ y.phase = x.phase ∧ y.outStation = x.outStation
    ∧ (x.state ≠ .draining → y.completionDue = false)

/-- The slot is STARVED in t and an entry for it stands at the tail of t's starve list (R88, R89, R101). -/
def StarvedNow (s t : State) (i : StationId) (tag : Nat) (layer : LayerId) : Prop :=
  t.starve = s.starve ++ [⟨i, tag, layer⟩]
    ∧ ∀ x, slotOf s i tag layer = some x → slotOf t i tag layer = some { x with state := .starved }

/-- Voice v is stolen for a slot (R88). -/
def StolenFor (s t : State) (v : VoiceId) (i : StationId) (tag : Nat) (layer : LayerId) : Prop :=
  DrainsFrom (s.voice v) (t.voice v) ∧ SameOtherVoices s t v
    ∧ t.claims = s.claims ++ [⟨i, tag, layer, v⟩] ∧ t.freeList = s.freeList ∧ t.faults = s.faults
    ∧ (∀ x, slotOf s i tag layer = some x →
        slotOf t i tag layer = some { x with state := .claiming v })
    ∧ ((s.voice v).state = .releasing → t.starve = s.starve)
    ∧ ∀ o, (s.voice v).state = .sounding → (s.voice v).owner = some o →
        t.starve = s.starve ++ [⟨o.station, o.tag, o.layer⟩]
          ∧ ∀ x, slotOf s o.station o.tag o.layer = some x →
              slotOf t o.station o.tag o.layer = some { x with state := .starved }

/-- A voice as it stands when its release begins at time t (R97, R99, R108). -/
def Voice.releasedAt (x : Voice) (t : Word) : Voice :=
  { x with
    state := .releasing, releaseStart := t, target := x.base, glide := .stopped, completionDue := false }

/-- The RELEASING or the SOUNDING voices owned by station i (R101). -/
def OwnedIn (s : State) (i : StationId) (state : VoiceState) (v : VoiceId) : Prop :=
  (s.voice v).state = state ∧ ∃ o, (s.voice v).owner = some o ∧ o.station = i

/-- Voice v leaves its station as an orphan (R101). -/
def OrphanedFrom (s t : State) (v : VoiceId) : Prop :=
  DrainsFrom (s.voice v) (t.voice v) ∧ SameOtherVoices s t v ∧ t.claims = s.claims
    ∧ t.freeList = s.freeList ∧ t.faults = s.faults

/-- What a STATION_SET does at once to a published breath state (R14, R16, R18): a ceiling below L lowers L and sets
CLIP, a bend range below |D| limits D and clears BEND when it is 0, a changed overblow level clears the history. -/
def Breath.actedOn (x : Breath) (ceiling range : Nat) (overblowChanged : Bool) : Breath :=
  { x with
    level := min x.level ceiling
    bend := max (-(range : Int)) (min range x.bend)
    ind := { x.ind with
      clip := x.ind.clip || decide (ceiling < x.level)
      bend := x.ind.bend && !decide (range = 0 ∧ x.bend ≠ 0) }
    history := x.history && !overblowChanged }

/-- A masked indicator is set: EXCESS, CLIP, BEND, RAISED in bits 0 to 3 (R79). -/
def MaskedSet (m : BitVec 4) (i : Indicators) : Prop :=
  (m.getLsbD 0 = true ∧ i.excess = true) ∨ (m.getLsbD 1 = true ∧ i.clip = true)
    ∨ (m.getLsbD 2 = true ∧ i.bend = true) ∨ (m.getLsbD 3 = true ∧ i.raised = true)

/-- A layer's condition is true (R64): an empty mask, or ANY with a masked indicator set, or NONE with none set. -/
def ConditionTrue (t : Tone) (i : Indicators) : Prop :=
  t.mask = 0 ∨ (t.sense = .any ∧ MaskedSet t.mask i) ∨ (t.sense = .noneOf ∧ ¬ MaskedSet t.mask i)

/-- The receiver of station i assembles characters (R136, R140, R141): the power-on clear is over, the station is
not DISABLED and has a bit time. That RST_N asserted stills the line too is the model's reading (log 10). -/
def Listens (s : State) (i : StationId) : Prop :=
  s.clearRunning = false ∧ s.rstAsserted = false ∧ (s.station i).state ≠ .disabled
    ∧ (s.station i).link.bitTime ≠ none

/-- The receiver of station i assembles characters at bit time T, within its range (R140), and the line rests. -/
def ListensAt (s : State) (i : StationId) (T : Nat) : Prop :=
  Listens s i ∧ (s.station i).link.bitTime = some T ∧ 8 ≤ T ∧ T ≤ 99
    ∧ (s.station i).link.character = .absent

/-- A CHARACTER row of station i whose operands, one after the other, give these levels of its line (log 19). -/
def GivesLine (c : Instr) (i : StationId) (levels : List Bool) : Prop :=
  ∃ start data mark stop : List Bool,
    c = .character i start data mark stop ∧ levels = start ++ data ++ mark ++ stop

/-- At bit time T these levels of a line, MCLK period by MCLK period from a falling edge on, carry the bits of one
character up to the middle of its stop bit: a start bit of 0, the data bits from bit 0 on, the mark bit and the stop
bit, bit n at n × T + T / 2 (R141, R168). -/
def CarriesCharacter (T : Nat) (levels : List Bool) (d : Byte) (mark stop : Bool) : Prop :=
  levels.length = 10 * T + T / 2 + 1 ∧ levels[0]? = some false ∧ levels[T / 2]? = some false
    ∧ (∀ j, j < 8 → levels[(j + 1) * T + T / 2]? = some (d.getLsbD j))
    ∧ levels[9 * T + T / 2]? = some mark ∧ levels[10 * T + T / 2]? = some stop

/-- A frame with this number passes the sequence window, with this many frames taken as missed (R148). -/
def WindowPasses (l : Link) (seq missed : Nat) : Prop :=
  (l.windowOpen = true ∧ missed = 0)
    ∨ (l.windowOpen = false ∧ ∃ last, l.lastSeq = some last
        ∧ (1 ≤ (seq + 16 - last) % 16 ∧ (seq + 16 - last) % 16 ≤ 8)
        ∧ missed + 1 = (seq + 16 - last) % 16)

/-- The part after a LINK_PROTOCOL of station i, counted and reported with its detail (R153, R155, R169). -/
def afterProtocolFault (s : State) (i : StationId) (detail : Nat) : State :=
  { s.updLink i fun l =>
      { l with counters := { l.counters with protocol := min 65535 (l.counters.protocol + 1) } } with
    faults := s.faults.take
      ⟨.linkProtocol, some i, none, none, BitVec.ofNat 32 detail, s.timebase⟩ }

/-- The part after the incomplete frame in assembly is dropped (R145): its start character, the number of
characters gathered and cause 3 are the detail. -/
def afterIncomplete (s : State) (i : StationId) (a : FrameAssembly) : State :=
  afterProtocolFault (s.updLink i fun l => { l with assembly := none }) i
    ((a.kind.startChar a.seq).toNat + a.chars.length * 256 + 3 * 4096)

/-- r is the REPLY a station gives to the frame with this number (R151, R168). -/
def IsReply (r : Reply) (x : Station) (seq : Nat) : Prop :=
  r.start = BitVec.ofNat 8 (0x80 + seq)
    ∧ r.note = (match x.fingering.note with | some n => BitVec.ofNat 8 n.number | none => 0xFF)
    ∧ r.status.toNat = x.state.number + (if x.breath.ind.gate then 8 else 0)
        + (if x.breath.ind.excess then 16 else 0) + (if x.breath.ind.clip then 32 else 0)
        + (if x.breath.ind.bend then 64 else 0) + (if x.breath.ind.raised then 128 else 0)
    ∧ r.start + r.note + r.status + r.check = 0

/-- The snapshot a frame's key field brings (R46): every key at or above the key count released. -/
def SnapshotOf (count : Nat) (keys now : Word) : Prop :=
  ∀ k : KeyId, now.getLsbD k.val = (decide (k.val < count) && keys.getLsbD k.val)

/-- A sense covers an edge: a press or a release (R45). -/
def CoversEdge (sense : KeySense) (press : Bool) : Prop :=
  sense = .both ∨ (sense = .press ∧ press = true) ∨ (sense = .release ∧ press = false)

/-- A frame with snapshot `now` brings a covered edge (R46). -/
def BringsCovered (x : Station) (now : Word) : Prop :=
  ∃ k : KeyId, x.fingering.snapshot.getLsbD k.val ≠ now.getLsbD k.val
    ∧ CoversEdge x.keySense[k] (now.getLsbD k.val)

/-- A frame with snapshot `now` and breath state b calls for a resolution (R48, R49, R53, R55): an onset; a covered
edge with a settle time of 0; uncovered changes with no window pending; a change of EXCESS with no window pending
after the frame's own edges, the current entry being present with its breath-register flag. An expired timer whose
expiry is not yet taken counts as a pending window (R50 for key changes; for EXCESS the model's reading, log 17). -/
def CallsForResolution (x : Station) (b : Breath) (now : Word) : Prop :=
  (x.breath.ind.gate = false ∧ b.ind.gate = true)
    ∨ (BringsCovered x now ∧ x.settings.settle = 0)
    ∨ (x.fingering.snapshot ≠ now ∧ ¬ BringsCovered x now ∧ x.fingering.settle = .stopped)
    ∨ (x.breath.ind.excess ≠ b.ind.excess
        ∧ ((BringsCovered x now ∧ x.settings.settle = 0)
          ∨ (¬ BringsCovered x now ∧ x.fingering.settle = .stopped))
        ∧ ∃ e, x.fingering.current = some e ∧ e.breathReg = true)

/-- What remains of a settle timer after a frame with snapshot `now` (R48). -/
def SettleAfter (x : Station) (now : Word) (timer : Timer) : Prop :=
  (BringsCovered x now → timer =
      if x.settings.settle = 0 then .stopped else .running (12 * x.settings.settle))
    ∧ (¬ BringsCovered x now → timer = x.fingering.settle)

/-- The part after steps 1 to 3 of R54 on a frame taken from station i's buffer, its breath computation, with result
b, published before them: the keys; at a fall of GATE the end of the note (R58); the settle timer; and an onset made
pending (R55). -/
def FrameBegun (s u : State) (i : StationId) (now : Word) (b : Breath) : Prop :=
  ∃ (w : State) (timer : Timer), SettleAfter (s.station i) now timer
    ∧ w = (s.updStation i fun x =>
        { x with
          state := .live
          breath := b
          fingering := { x.fingering with
            snapshot := now, changed := x.fingering.changed ||| (x.fingering.snapshot ^^^ now) }
          link := { x.link with
            buffer := none
            silence := if x.state = .lost then .running 1152 else x.link.silence } })
    ∧ ∃ v : State,
        v = (if (s.station i).breath.ind.gate = true ∧ b.ind.gate = false then
            (noteOff w i).updStation i fun x =>
              { x with fingering := { x.fingering with onsetPending := false } }
          else w)
        ∧ u = v.updStation i fun x =>
            { x with
              fingering := { x.fingering with
                settle := timer
                onsetPending :=
                  x.fingering.onsetPending || (!(s.station i).breath.ind.gate && b.ind.gate) } }

/-- A frame's work ends in u with the REPLY to it falling due (R54 step 6, R151). -/
def EndsWithReply (u t : State) (i : StationId) (seq : Nat) : Prop :=
  ∃ r : Reply, IsReply r (u.station i) seq ∧ t = u.updLink i fun l => l.queueReply r

/-- A timer one sample period later (R48, R150): a running one has one period less to go and expires at 0. That an
expiry not yet taken stands is the model's (log 17). -/
def TimerFell (before after : Timer) : Prop :=
  (∀ n, before = .running n → after = if n ≤ 1 then .expired else .running (n - 1))
    ∧ ((∀ n, before ≠ .running n) → after = before)

/-- A station of which the end of a sample period, n MCLK periods away, has changed the two timers and the place in
the reply being sent, and nothing else (R48, R150, R152). -/
def Ticked (n : Nat) (x y : Station) : Prop :=
  y = { x with
      fingering := { x.fingering with settle := y.fingering.settle }
      link := { x.link with silence := y.link.silence, sending := x.link.sending.map (Sending.pass n) } }
    ∧ TimerFell x.fingering.settle y.fingering.settle ∧ TimerFell x.link.silence y.link.silence

/-- z is voice x of output station i after step 1 of R113: its glide advanced, its effective pitch formed from base
pitch and bend, the increment where that changed (R111, R112). -/
def PitchFormed (s : State) (x z : Voice) (i : StationId) : Prop :=
  ∃ g : Voice, g = advanceGlide s x
    ∧ (z.eff : Int) = max 0 (min 8191 ((g.base : Int) + (s.station i).breath.bend))
    ∧ z.inc = (if z.eff = x.eff then x.inc else incrementOf z.eff)
    ∧ z = { g with eff := z.eff, inc := z.inc }

/-! ### Bytes in a row -/

/-- The part after PARAMETER_BYTE events with these bytes, one after the other. -/
def feedBytes (s : State) : List Byte → State
  | [] => s
  | b :: bs =>
    match exec (.parameterByte b) s with
    | .next t => feedBytes t bs
    | .fault _ | .refused _ => s

/-! ### What stays as it was -/

/-- Charts, templates, wave descriptors and wave memory are the same. -/
def SameStores (s t : State) : Prop :=
  t.charts = s.charts ∧ t.templates = s.templates ∧ t.waves = s.waves ∧ t.memory = s.memory

/-- The voice pool is the same. -/
def SamePool (s t : State) : Prop :=
  t.voices = s.voices ∧ t.freeList = s.freeList ∧ t.claims = s.claims ∧ t.starve = s.starve
    ∧ t.tagCounter = s.tagCounter

/-- The queue, the timebase, the power-on clear, RST_N, the audio port, the control port and the read counter are
the same. -/
def SameDevice (s t : State) : Prop :=
  t.pending = s.pending ∧ t.timebase = s.timebase ∧ t.clearRunning = s.clearRunning
    ∧ t.rstAsserted = s.rstAsserted ∧ t.audio = s.audio ∧ t.port = s.port ∧ t.draws = s.draws

/-- Station i's note, if it sounds one, ends by NOTE_OFF: the pool is as NOTE_OFF leaves it, and the other stations
are as they were (R58, R59, R99). -/
def NoteEnds (s t : State) (i : StationId) : Prop :=
  SamePool (noteOff s i) t ∧ ∀ j, j ≠ i → t.station j = s.station j

/-- A note record without its slots' states. -/
def NoteRecord.unslotted (n : NoteRecord) : NoteRecord :=
  { n with slots := n.slots.map fun x => { x with state := .dormant } }

/-- A station without the states of its note's slots, which the voice allocator writes whichever station's event
it serves (R62, section 3.2 of 00_scope.md). -/
def Station.unslotted (x : Station) : Station :=
  { x with fingering := { x.fingering with note := x.fingering.note.map NoteRecord.unslotted } }

/-- Station j is the same, but for its slots' states. -/
def SameStation (s t : State) (j : StationId) : Prop :=
  (t.station j).unslotted = (s.station j).unslotted

/-- The voice allocator leaves everything but the voices, the free list, the claim table, the starve list, the
states of layer slots and the fault capture as it was; of the capture it leaves the policy. -/
def AllocatorFrame (s t : State) : Prop :=
  SameStores s t ∧ SameDevice s t ∧ (∀ j, SameStation s t j) ∧ t.tagCounter = s.tagCounter
    ∧ t.faults.enable = s.faults.enable ∧ t.faults.mask = s.faults.mask

/-- An event of station i's engine leaves everything but station i, the voice pool, the slots of other stations'
notes and the fault capture as it was; of the capture it leaves the policy. -/
def EngineFrame (s t : State) (i : StationId) : Prop :=
  SameStores s t ∧ SameDevice s t ∧ (∀ j, j ≠ i → SameStation s t j)
    ∧ t.faults.enable = s.faults.enable ∧ t.faults.mask = s.faults.mask

end Sys2Proof.Machine
end

