-- ==== Sys2Proof/Certificates/Slice0/Obligations.lean ====
section
/-! DEFINITION. The statements about the part, one definition each. A statement says what the rules of the spec say
of a command, of a kind of state or of every step; where a clause rests on a choice of the model its docstring names
the log entry. -/

open Sys2Proof Sys2Proof.Machine

/-! ### The queue and the whole machine -/

/-- A step takes the command at the front of the queue and runs it on the part with the queue's rest. On an empty
queue, which is the model's choice (log 3), one bit time of the TDM frame goes by: the frame position counts on, and
its two MCLK periods go by for every reply being sent; nothing else changes, and in the frame's last bit time nothing
does (R120, R152). -/
def Obligations.StepTakesTheFrontCommand : Prop :=
  (∀ (c : Instr) (s : State), step { s with pending := c :: s.pending } = exec c s)
    ∧ ∀ s : State, s.pending = [] →
        (s.audio.position < 255 →
          step s =
            .next { s with
              audio := { s.audio with position := s.audio.position + 1 }
              stations := s.stations.map fun x =>
                { x with link := { x.link with sending := x.link.sending.map (Sending.pass 2) } } })
        ∧ (255 ≤ s.audio.position → step s = .next s)

/-! ### Resets -/

/-- The values after power-on, block by block (R1, R3, R4, R25, R43 to R45, R61, R67, R80 to R83, R90, R93, R108,
R109, R119, R121, R122, R126, R127, R140, R154, R163). The levels of the pins CS_N and RST_N, which are the
model's (log 5), and the wave memory before the clear ends (log 6) are not part of it. -/
def Obligations.ResetHoldsThePowerOnValues : Prop :=
  (State.reset.timebase = 0 ∧ State.reset.clearRunning = true ∧ State.reset.tagCounter = 1)
    ∧ (∀ i : StationId,
        (State.reset.station i).state = .offline
          ∧ (State.reset.station i).settings =
              { enable := true, follow := true, spread := 96, template := 0, chart := 0,
                settle := 8, mode := .legato, glide := 0, threshold := 64, gain := 255,
                curve := .root, ceiling := 1023, overblow := 0, hysteresis := 32,
                deadZone := 16, bendGain := 0, bendRange := 128, reserve := 0, cap := 32,
                transpose := 0, outGain := 16 }
          ∧ (∀ k : KeyId, (State.reset.station i).keySense[k] = .both)
          ∧ (State.reset.station i).breath =
              { zero := 0, lipCentre := 0, level := 0, bend := 0,
                ind := ⟨false, false, false, false, false, false⟩, history := false,
                borrowRun := 0 }
          ∧ (State.reset.station i).fingering =
              { snapshot := 0, changed := 0, settle := .stopped, onsetPending := false,
                current := none, note := none, misses := 0 }
          ∧ (State.reset.station i).cls = none ∧ (State.reset.station i).keyCount = 32
          ∧ (State.reset.station i).calib = ⟨0, 0, 0, none, none⟩
          ∧ (State.reset.station i).restarts = 0
          ∧ (State.reset.station i).link =
              { bitTime := none, character := .absent, assembly := none, buffer := none,
                lastSeq := none, windowOpen := true, silence := .stopped, sending := none,
                waiting := none, counters := ⟨0, 0, 0, 0, 0⟩ })
    ∧ (∀ c : ChartId, State.reset.charts.lists[c] = [] ∧ State.reset.charts.lengths[c] = 0)
    ∧ (State.reset.charts.freeCells = 512 ∧ State.reset.charts.edit = none)
    ∧ (∀ n : TemplateId, State.reset.templates[n] = [])
    ∧ (∀ w : WaveId, State.reset.waves[w] = none)
    ∧ (∀ v : VoiceId, (State.reset.voice v).state = .free ∧ (State.reset.voice v).owner = none
        ∧ (State.reset.voice v).copy = none ∧ (State.reset.voice v).outStation = none
        ∧ (State.reset.voice v).base = 0 ∧ (State.reset.voice v).target = 0
        ∧ (State.reset.voice v).eff = 0 ∧ (State.reset.voice v).inc = 0
        ∧ (State.reset.voice v).phase = 0 ∧ (State.reset.voice v).amp = 0
        ∧ (State.reset.voice v).ampTarget = 0)
    ∧ State.reset.freeList.map Fin.val = List.range 32
    ∧ (State.reset.claims = [] ∧ State.reset.starve = []
        ∧ ∀ i : StationId, stationCount State.reset i = 0)
    ∧ (∀ i : StationId, State.reset.audio.clip[i] = false)
    ∧ State.reset.faults = { first := none, flags := 0, count := 0, enable := 0x07FE, mask := 0 }
    ∧ State.reset.port.phase = .idle

/-- POWER_ON leaves every item at its power-on value, from any state (section 5.8, R121); the model keeps its own
queue and its counter of free values. That CS_N is then high and RST_N released is the model's (logs 5 and 28), as is
the value of the wave memory before the clear's end (log 6). POWER_ON_CLEAR_END ends the clear with every sample 0
and its parity good, and changes nothing else (R121). -/
def Obligations.PowerOnStartsAndEndsTheClear : Prop :=
  (∀ s : State, exec .powerOn s = .next { State.reset with pending := s.pending, draws := s.draws })
    ∧ ∀ s : State, s.clearRunning = true →
        ∃ m : Memory,
          exec .powerOnClearEnd s = .next { s with clearRunning := false, memory := m }
            ∧ ∀ a, m.sampleBits a = 0 ∧ m.parityFailed a = false

/-- PIN_RESET keeps templates, wave descriptors, wave memory, the fault capture and a running power-on clear,
abandons an edit in flight, and returns everything else to its power-on value (R1, R26, R61, R67, R81, R105, R120,
R122, R126, R140, R154, R165). PIN_RESET_RELEASE leaves the port waiting to see CS_N high and changes nothing else
(R165). That the TDM frame in progress then goes on, its position kept, is the model's reading (log 18). -/
def Obligations.PinResetKeepsTheStores : Prop :=
  (∀ s : State, ∃ t : State, exec .pinReset s = .next t
      ∧ (t.templates = s.templates ∧ t.waves = s.waves ∧ t.memory = s.memory
        ∧ t.faults = s.faults ∧ t.clearRunning = s.clearRunning ∧ t.pending = s.pending)
      ∧ (t.rstAsserted = true ∧ t.timebase = 0 ∧ t.tagCounter = 1
        ∧ t.audio = { Audio.reset with position := s.audio.position })
      ∧ (∀ i : StationId, t.station i = Station.reset)
      ∧ (∀ v : VoiceId, t.voice v = Voice.free)
      ∧ (t.freeList = List.finRange 32 ∧ t.claims = [] ∧ t.starve = [])
      ∧ (t.port.phase = .idle ∧ t.port.csLow = s.port.csLow)
      ∧ (t.charts.lists = s.charts.lists ∧ t.charts.edit = none)
      ∧ (s.charts.ok →
          (∀ c : ChartId, t.charts.lengths[c] = s.charts.lists[c].length)
            ∧ t.charts.freeCells + overCharts (fun c => s.charts.lists[c].length) = 512))
    ∧ ∀ s : State, s.rstAsserted = true →
        exec .pinResetRelease s =
          .next { s with rstAsserted := false, port := { s.port with awaitHigh := s.port.csLow } }

/-! ### The control port's own events -/

/-- CS_N falling begins a transaction, unless RST_N is asserted or the port waits to see CS_N high after a pin
reset; CS_N rising ends it, discards a command in assembly, and takes PORT_ABORT exactly when parameters were being
taken, with the command byte and the number of parameter bytes as detail (R163, R165, R169). That the bits of a
fault detail that R169 does not name are 0 is the model's (log 34). -/
def Obligations.ChipSelectEdges : Prop :=
  (∀ s : State, s.port.csLow = false → s.rstAsserted = false → s.port.awaitHigh = false →
      exec .transactionBegin s = .next { s with port := ⟨.command, true, false⟩ })
    ∧ (∀ s : State, s.port.csLow = false → (s.rstAsserted = true ∨ s.port.awaitHigh = true) →
        exec .transactionBegin s = .next { s with port := { s.port with csLow := true } })
    ∧ (∀ (s : State) (cmd : Byte) (taken : List Byte) (n : Nat), s.port.csLow = true →
        s.port.phase = .parameters cmd taken n →
          exec .transactionEnd s =
            .next { s with
              port := ⟨.idle, false, false⟩
              faults := s.faults.take
                { kind := .portAbort, station := none, voice := none, tag := none,
                  detail := BitVec.ofNat 32 (cmd.toNat + 256 * taken.length),
                  time := s.timebase } })
    ∧ ∀ s : State, s.port.csLow = true →
        (∀ cmd taken n, s.port.phase ≠ .parameters cmd taken n) →
          exec .transactionEnd s = .next { s with port := ⟨.idle, false, false⟩ }

/-- The port's bytes (R163, R164, R165). A known command byte with parameters enters PARAMETERS with the table's
count; a parameter byte that is not the last is kept, and WAVE_WRITE's count byte n of 1 to 64 makes the count 3 +
2n. An unknown byte is answered UNKNOWN (0x06), any byte during the power-on clear NOT_READY (0x07), and the port is
then in IGNORE, as it is when a response has ended. In a response the result code comes first, in the byte that R2
gives it, then the record. On MISO the port drives nothing in IDLE, which is high impedance, 0xFF in COMMAND,
PARAMETERS and, once the answer has been driven, IGNORE, and in RESPONSE the code, the record and then 0xFF. Bytes
travel most significant bit first, on MISO and on MOSI. -/
def Obligations.PortTakesItsBytes : Prop :=
  (∀ (s : State) (b : Byte) (n : Nat), s.port.phase = .command → s.clearRunning = false →
      paramCount b = some n → 0 < n →
        exec (.parameterByte b) s = .next { s with port := { s.port with phase := .parameters b [] n } })
    ∧ (∀ (s : State) (b cmd : Byte) (taken : List Byte) (n : Nat),
        s.port.phase = .parameters cmd taken n → taken.length + 1 < n →
        (cmd = 0x31 → taken.length ≠ 2) →
          exec (.parameterByte b) s =
            .next { s with port := { s.port with phase := .parameters cmd (taken ++ [b]) n } })
    ∧ (∀ (s : State) (b : Byte) (taken : List Byte) (n : Nat),
        s.port.phase = .parameters 0x31 taken n → taken.length = 2 → 1 ≤ b.toNat → b.toNat ≤ 64 →
          exec (.parameterByte b) s =
            .next { s with
              port := { s.port with phase := .parameters 0x31 (taken ++ [b]) (3 + 2 * b.toNat) } })
    ∧ (∀ (s : State) (b : Byte), s.port.phase = .command → s.clearRunning = false →
        paramCount b = none →
          ∃ p, exec (.unknownCommandByte b) s = .next { s with port := { s.port with phase := p } }
            ∧ p = .ignore (some .unknown) ∧ { s.port with phase := p }.miso = some [0x06])
    ∧ (∀ (s : State) (b : Byte), s.port.phase = .command → s.clearRunning = true →
          ∃ p, exec (.notReady b) s = .next { s with port := { s.port with phase := p } }
            ∧ p = .ignore (some .notReady) ∧ { s.port with phase := p }.miso = some [0x07])
    ∧ ([ResultCode.ok, .adjusted, .busy, .range, .full, .stale, .unknown, .notReady, .notHeld, .inUse].map
          ResultCode.value = [0x00, 0x01, 0x02, 0x03, 0x04, 0x05, 0x06, 0x07, 0x08, 0x09])
    ∧ (∀ (s : State) (code : ResultCode) (r : List Byte), s.port.phase = .response code r →
        { s.port with phase := .response code r }.miso = some (code.value :: r)
          ∧ exec .responseEnd s = .next { s with port := { s.port with phase := .ignore none } })
    ∧ (∀ (p : Port) (n : Nat),
        (p.phase = .idle → p.misoByte n = none)
          ∧ (p.phase = .command → p.misoByte n = some 0xFF)
          ∧ (∀ cmd taken m, p.phase = .parameters cmd taken m → p.misoByte n = some 0xFF)
          ∧ (∀ code r, p.phase = .response code r →
              p.misoByte n = some ((code.value :: r).getD n 0xFF))
          ∧ (p.phase = .ignore none → p.misoByte n = some 0xFF)
          ∧ (∀ code, p.phase = .ignore (some code) →
              p.misoByte n = some (if n = 0 then code.value else 0xFF))
          ∧ ∀ j, j < 8 → p.misoLevel (8 * n + j) = (p.misoByte n).map fun b => b.getLsbD (7 - j))
    ∧ ∀ levels : List Bool, levels.length = 8 → ∀ j, j < 8 →
        (byteOfLevels levels).getLsbD (7 - j) = levels.getD j false

/-- Every command answers a next state and none touches the queue. A command of the wire that the port cannot take
now changes nothing: its answer, if any, is that of the rows UNKNOWN_COMMAND_BYTE and NOT_READY. During the power-on
clear none is taken (R121, R165). That such a row stands in the queue at all is the model's (logs 2 and 4). -/
def Obligations.NoCommandStopsThePart : Prop :=
  (∀ (c : Instr) (s : State), ∃ t : State, exec c s = .next t ∧ t.pending = s.pending)
    ∧ (∀ (c : Instr) (s : State), (wireOf c).isSome = true → portTakes s c = false →
        exec c s = .next s)
    ∧ ∀ (c : Instr) (s : State), s.clearRunning = true → s.port.phase = .command →
        portTakes s c = false

/-- Bytes on MOSI and the commands they name (R163 to R166, R169). A command byte and parameter bytes name the
command c exactly when c is well formed and travels as these bytes. Taken byte by byte, a command reaches the point
where its last parameter byte is the next (R163, R166): from COMMAND, once every byte of it but the last has been
taken, the port is in PARAMETERS with the command byte, every parameter byte but the last taken and the command's
number of parameter bytes expected, which is 3 + 2n for a WAVE_WRITE of n samples; for a command without parameters
it is still in COMMAND. The port then takes the command, and nothing but the port has changed. Of the bytes taken on
the way, each but the last stands for the row PARAMETER_BYTE, and the last one stands for the command's own row. -/
def Obligations.ByteByByteReachesTheCommand : Prop :=
  (∀ (c : Instr) (cmd : Byte) (bytes : List Byte),
      commandOf cmd bytes = some c ↔ c.wellFormed = true ∧ wireOf c = some (cmd, bytes))
    ∧ ∀ (c : Instr) (s : State) (cmd : Byte) (bytes : List Byte), c.wellFormed = true →
      wireOf c = some (cmd, bytes) → s.port.phase = .command → s.clearRunning = false →
        portTakes (feedBytes s (cmd :: bytes).dropLast) c = true
          ∧ (∃ p, feedBytes s (cmd :: bytes).dropLast = { s with port := { s.port with phase := p } }
            ∧ (bytes = [] → p = .command)
            ∧ (bytes ≠ [] → p = .parameters cmd bytes.dropLast bytes.length))
          ∧ ∀ before b rest, cmd :: bytes = before ++ b :: rest →
              (feedBytes s before).rowOfByte b = some (if rest = [] then c else .parameterByte b)

/-- A station, chart, template, wave or voice number that names nothing is refused with RANGE and changes nothing
(R32 to R36, R41, R45, R69, R72, R73, R106, R122, R123, R128, R137, R139, R162). -/
def Obligations.NumbersThatNameNothingAreRefused : Prop :=
  ∀ (s : State) (b x y : Byte),
    (4 ≤ b.toNat → ∀ c : Instr,
        (c = .stationRead b x ∨ (∃ p, p.station = b ∧ c = .stationSet p)
          ∨ (∃ l, c = .keysenseSet b l) ∨ c = .stationRestart b) →
        portTakes s c = true → exec c s = .next (s.answered .range []))
      ∧ (8 ≤ b.toNat → s.charts.edit = none → ∀ c : Instr,
        (c = .chartRead b x ∨ (∃ e, c = .chartAppend b e) ∨ (∃ e, c = .chartInsert b x e)
          ∨ (∃ e, c = .chartReplace b x e) ∨ c = .chartRemove b x ∨ c = .chartClear b) →
        portTakes s c = true → exec c s = .next (s.answered .range []))
      ∧ (16 ≤ b.toNat → ∀ c : Instr,
        ((∃ l0 l1 l2, c = .templateSet b x l0 l1 l2) ∨ c = .templateRead b ∨ c = .templateClear b) →
        portTakes s c = true → exec c s = .next (s.answered .range []))
      ∧ (32 ≤ b.toNat → ∀ c : Instr,
        ((∃ st, c = .waveDefine b st y) ∨ c = .waveDelete b ∨ c = .voiceRead b ∨ c = .voiceRetire b) →
        portTakes s c = true → exec c s = .next (s.answered .range []))

/-! ### Records read at the control port -/

/-- STATUS_READ (R167): its 261 bytes, place by place, and that it changes nothing. -/
def Obligations.StatusReadRecord : Prop :=
  ∀ s : State, portTakes s .statusRead = true → ∃ r : List Byte,
    exec .statusRead s = .next (s.answered .ok r)
      ∧ r.length = 261
      ∧ r.take 4 = be32 s.timebase.toNat
      ∧ (∀ i : StationId, r[4 + i.val]? = some (BitVec.ofNat 8 (s.station i).state.number))
      ∧ r[8]? = some (BitVec.ofNat 8 s.freeList.length)
      ∧ (∀ n, n < 32 → r[9 + n]? =
          some (match s.freeList[n]? with | some v => BitVec.ofNat 8 v.val | none => 0xFF))
      ∧ (∀ i : StationId, r[41 + i.val]? = some (BitVec.ofNat 8 (stationCount s i)))
      ∧ r[45]? = some (BitVec.ofNat 8 s.claims.length)
      ∧ (∀ n, n < 12 → (r.drop (46 + 4 * n)).take 4 =
          (match s.claims[n]? with
            | some c =>
              [BitVec.ofNat 8 c.station.val, BitVec.ofNat 8 c.tag, BitVec.ofNat 8 c.layer.val,
                BitVec.ofNat 8 c.voice.val]
            | none => [0xFF, 0xFF, 0xFF, 0xFF]))
      ∧ r[94]? = some (BitVec.ofNat 8 s.starve.length)
      ∧ (∀ n, n < 12 → (r.drop (95 + 3 * n)).take 3 =
          (match s.starve[n]? with
            | some e =>
              [BitVec.ofNat 8 e.station.val, BitVec.ofNat 8 e.tag, BitVec.ofNat 8 e.layer.val]
            | none => [0xFF, 0xFF, 0xFF]))
      ∧ r[131]? = some (BitVec.ofNat 8 s.tagCounter)
      ∧ (∀ w : WaveId, (r.drop (132 + 4 * w.val)).take 4 =
          (match s.waves[w] with
            | some g => BitVec.ofNat 8 1 :: be16 g.start ++ [BitVec.ofNat 8 g.k]
            | none => [0, 0, 0, 0]))
      ∧ r[260]? = some (if s.faults.alert then 1 else 0)

/-- STATION_READ (R139, R169): the groups of its 92 bytes in order, the 26 setting bytes among them, with what a set
clear flag clears. Places to which the spec gives no value are free values (log 15); the counter of free values
`draws` is the model's own. That a settle timer reads as stopped from its expiry on, while the expiry waits to be
taken (R48, log 17), that a SILENT note record shows the slot count 0 (log 30) and that bits 6 and 7 of the
indicator byte are 0 (log 34) is the model's. -/
def Obligations.StationReadRecord : Prop :=
  ∀ (s : State) (b clear : Byte) (i : StationId), b.toNat = i.val →
    portTakes s (.stationRead b clear) = true → ∃ r : List Byte,
      exec (.stationRead b clear) s =
          .next (State.answered
            { (if clear = 0 then s else s.updStation i fun x =>
                { x with
                  restarts := 0
                  fingering := { x.fingering with misses := 0 }
                  link := { x.link with counters := ⟨0, 0, 0, 0, 0⟩ } }) with
              draws := s.draws + 1 } .ok r)
        ∧ r.length = 92
        ∧ r.take 10 =
            be8 (s.station i).state.number ++ be8 ((s.station i).cls.getD 0xFF)
              ++ be8 (s.station i).keyCount ++ be8 (s.station i).calib.count
              ++ be16 ((s.station i).calib.minimum.getD 0xFFFF)
              ++ be16 ((s.station i).calib.maximum.getD 0xFFFF) ++ be16 (s.station i).restarts
        ∧ (∀ c : Settings, c = (s.station i).settings →
            (r.drop 10).take 26 =
              flag8 c.enable ++ flag8 c.follow ++ be16 c.spread ++ be8 c.template.val ++ be8 c.chart.val
                ++ be8 c.settle ++ be8 (match c.mode with | .legato => 0 | .retrigger => 1)
                ++ be8 c.glide ++ be16 c.threshold ++ be8 c.gain
                ++ be8 (match c.curve with | .root => 0 | .linear => 1) ++ be16 c.ceiling
                ++ be16 c.overblow ++ be8 c.hysteresis ++ be8 c.deadZone ++ be8 c.bendGain
                ++ be16 c.bendRange ++ be8 c.reserve ++ be8 c.cap ++ signed8 c.transpose
                ++ be8 c.outGain)
        ∧ (r.drop 36).take 10 =
            be16 (s.station i).breath.level ++ signed16 (s.station i).breath.bend
              ++ be8 ((if (s.station i).breath.ind.excess then 1 else 0)
                + (if (s.station i).breath.ind.clip then 2 else 0)
                + (if (s.station i).breath.ind.bend then 4 else 0)
                + (if (s.station i).breath.ind.raised then 8 else 0)
                + (if (s.station i).breath.ind.gate then 16 else 0)
                + (if (s.station i).breath.ind.borrow then 32 else 0))
              ++ be16 (s.station i).breath.zero
              ++ be16 (s.station i).breath.lipCentre ++ be8 (s.station i).breath.borrowRun
        ∧ (r.drop 46).take 10 =
            be32 (s.station i).fingering.snapshot.toNat ++ be32 (s.station i).fingering.changed.toNat
              ++ be16 (match (s.station i).fingering.settle with
                | .stopped => 0xFFFF
                | .running n => n
                | .expired => 0xFFFF)
        ∧ (r.drop 56).take 2 =
            flag8 (s.station i).fingering.note.isSome ++ flag8 (s.station i).fingering.onsetPending
        ∧ r[58]? = some (if (s.station i).fingering.current.isSome then 1 else 0)
        ∧ (∀ e, (s.station i).fingering.current = some e →
            (r.drop 59).take 4 = be8 e.note ++ orFF e.regKey ++ be8 e.step ++ flag8 e.breathReg)
        ∧ r[63]? = some (BitVec.ofNat 8 (s.station i).fingering.misses)
        ∧ (∀ n, s.note i = some n →
            (r.drop 64).take 5 = be8 n.tag ++ be8 n.number ++ flag8 n.raised ++ orFF n.template
                ++ be8 n.slots.length
              ∧ ∀ k x, k < 3 → n.slots[k]? = some x →
                  (r.drop (69 + 3 * k)).take 3 =
                    be8 x.layer.val
                      ++ (match x.state with
                        | .dormant => [0, 0xFF]
                        | .starved => [1, 0xFF]
                        | .claiming v => [2, BitVec.ofNat 8 v.val]
                        | .voiced v => [3, BitVec.ofNat 8 v.val]))
        ∧ (s.note i = none → r[64]? = some 0 ∧ r[67]? = some 0xFF ∧ r[68]? = some 0)
        ∧ (r.drop 78).take 3 =
            be8 (s.station i).settings.reserve ++ be8 (s.station i).settings.cap
              ++ be8 (stationCount s i)
        ∧ (r.drop 81).take 11 =
            be8 ((s.station i).link.bitTime.getD 0) ++ be16 (s.station i).link.counters.missed
              ++ be16 (s.station i).link.counters.stale ++ be16 (s.station i).link.counters.framing
              ++ be16 (s.station i).link.counters.check ++ be16 (s.station i).link.counters.protocol

/-- VOICE_READ (R106, R169): its 43 bytes, by the voice's state, and that it changes nothing but the model's counter
of free values. The region of an absent wave B and a FREE voice's layer fields are free values (log 15). -/
def Obligations.VoiceReadRecord : Prop :=
  ∀ (s : State) (b : Byte) (v : VoiceId), b.toNat = v.val → portTakes s (.voiceRead b) = true →
    ∃ r : List Byte,
      exec (.voiceRead b) s = .next (State.answered { s with draws := s.draws + 1 } .ok r)
        ∧ r.length = 43
        ∧ r[0]? = some (match (s.voice v).state with
            | .free => (0 : Byte) | .sounding => 1 | .releasing => 2 | .draining => 3 | .faulted => 4)
        ∧ r[1]? = some (if (s.voice v).state = .free then BitVec.ofNat 8 (s.freeList.idxOf v) else 0xFF)
        ∧ (∀ o, (s.voice v).owner = some o →
            (s.voice v).state = .sounding ∨ (s.voice v).state = .releasing
                ∨ (s.voice v).state = .faulted →
              (r.drop 2).take 3 = be8 o.station.val ++ be8 o.tag ++ be8 o.layer.val)
        ∧ ((s.voice v).state = .faulted → (s.voice v).owner = none →
            (r.drop 2).take 3 = [0xFF, 0, 0xFF])
        ∧ ((s.voice v).state = .free → (r.drop 2).take 3 = [0xFF, 0, 0xFF])
        ∧ ((s.voice v).state = .draining → ∀ c, claimOf s v = some c →
            (r.drop 2).take 4 = be8 c.station.val ++ be8 c.tag ++ be8 c.layer.val ++ [0])
        ∧ ((s.voice v).state = .draining → claimOf s v = none →
            (r.drop 2).take 4 = [0xFF, 0, 0xFF, 1])
        ∧ ((s.voice v).state ≠ .draining → r[5]? = some 0xFF)
        ∧ (r.drop 6).take 4 = be32 (match (s.voice v).state with
            | .sounding | .faulted => (s.voice v).claimTime.toNat
            | .releasing => (s.voice v).releaseStart.toNat
            | .free | .draining => 0)
        ∧ (∀ c, (s.voice v).copy = some c → (s.voice v).state ≠ .free →
            (r.drop 10).take 15 =
                be8 c.waveA.wave.val ++ orFF (c.waveB.map WaveCopy.wave)
                  ++ signed8 c.tone.transpose ++ signed8 c.tone.fine ++ be8 c.tone.level
                  ++ be8 c.tone.pan ++ be8 c.tone.mask.toNat
                  ++ be8 (match c.tone.sense with | .any => 0 | .noneOf => 1)
                  ++ be16 c.tone.attack ++ be16 c.tone.release
                  ++ be16 c.waveA.region.start ++ be8 c.waveA.region.k
              ∧ ∀ wb, c.waveB = some wb →
                  (r.drop 25).take 3 = be16 wb.region.start ++ be8 wb.region.k)
        ∧ ((s.voice v).state = .free → (r.drop 10).take 2 = [0xFF, 0xFF])
        ∧ r.drop 28 =
            orFF (s.voice v).outStation ++ be16 (s.voice v).base ++ be16 (s.voice v).target
              ++ be16 (s.voice v).eff ++ be16 (s.voice v).amp ++ be16 (s.voice v).ampTarget
              ++ be32 (s.voice v).phase.toNat

/-- FAULT_READ (R159, R169): its 25 bytes, and that it changes nothing but the model's counter of free values. Of
an empty record the kind, the detail and the timestamp are free values (log 15). -/
def Obligations.FaultReadRecord : Prop :=
  ∀ s : State, portTakes s .faultRead = true → ∃ r : List Byte,
    exec .faultRead s = .next (State.answered { s with draws := s.draws + 1 } .ok r)
      ∧ r.length = 25
      ∧ (∀ f, s.faults.first = some f →
          r.take 13 = [BitVec.ofNat 8 1, BitVec.ofNat 8 f.kind.number] ++ orFF f.station
            ++ orFF f.voice ++ be8 (f.tag.getD 0) ++ be32 f.detail.toNat ++ be32 f.time.toNat)
      ∧ (s.faults.first = none → r[0]? = some 0 ∧ (r.drop 2).take 3 = [0xFF, 0xFF, 0])
      ∧ (r.drop 13).take 8 =
          be16 s.faults.flags.toNat ++ be16 s.faults.count.toNat ++ be16 s.faults.enable.toNat
            ++ be16 s.faults.mask.toNat
      ∧ ∃ held : Word, r.drop 21 = be32 held.toNat
          ∧ ∀ v : VoiceId, held.getLsbD v.val = ((s.voice v).state == .faulted)

/-! ### Station commands -/

/-- STATION_SET, accepted: every setting of the station is stored within its range (R4, R44, R83, R109, R127,
R128); the key senses, the class, the key count, the zero, the lip centre and the link counters stay, and so does
all that is not the station's, the pool's or the fault capture's record, but that a disable clears the station's clip
state (R119). -/
def Obligations.StationSetStoresTheSettings : Prop :=
  ∀ (s : State) (p : StationSetParams) (i : StationId) (tm : TemplateId) (ch : ChartId),
    p.station.toNat = i.val → p.template.toNat = tm.val → p.chart.toNat = ch.val →
    p.reserve.toNat + otherReserves s i ≤ 32 → portTakes s (.stationSet p) = true →
    ∃ (t : State) (code : ResultCode), exec (.stationSet p) s = .next (t.answered code [])
      ∧ (code = .ok ∨ code = .adjusted)
      ∧ EngineFrame
          (if (s.station i).settings.enable = true ∧ p.enable.toNat = 0 then
            { s with audio := { s.audio with clip := s.audio.clip.set i false } }
          else s) t i
      ∧ (t.station i).settings =
          { enable := decide (p.enable.toNat ≠ 0)
            follow := decide (p.follow.toNat ≠ 0)
            spread := min 1023 p.spread.toNat
            template := tm
            chart := ch
            settle := min 63 p.settle.toNat
            mode := if p.mode.toNat = 0 then .legato else .retrigger
            glide := p.glide.toNat
            threshold := min 1023 p.threshold.toNat
            gain := p.gain.toNat
            curve := if p.curve.toNat = 0 then .root else .linear
            ceiling := if p.ceiling.toNat = 0 then 1 else min 1023 p.ceiling.toNat
            overblow := min 1023 p.overblow.toNat
            hysteresis := p.hysteresis.toNat
            deadZone := p.deadZone.toNat
            bendGain := p.bendGain.toNat
            bendRange := min 768 p.bendRange.toNat
            reserve := p.reserve.toNat
            cap := max p.reserve.toNat (if p.cap.toNat = 0 then 1 else min 32 p.cap.toNat)
            transpose := max (-48) (min 48 p.transpose.toInt)
            outGain := p.outGain.toNat }
      ∧ (t.station i).keySense = (s.station i).keySense
      ∧ (t.station i).cls = (s.station i).cls
      ∧ (t.station i).keyCount = (s.station i).keyCount
      ∧ (t.station i).breath.zero = (s.station i).breath.zero
      ∧ (t.station i).breath.lipCentre = (s.station i).breath.lipCentre
      ∧ (t.station i).link.counters = (s.station i).link.counters

/-- STATION_SET's tests and its answer (R128): a template, a chart or a reserve that fails its test is refused with
RANGE and nothing changes; otherwise the answer is ADJUSTED exactly when a field lies outside its range, or the cap
below the reserve. -/
def Obligations.StationSetTestsAndClamps : Prop :=
  ∀ (s : State) (p : StationSetParams) (i : StationId), p.station.toNat = i.val →
    portTakes s (.stationSet p) = true →
      ((16 ≤ p.template.toNat ∨ 8 ≤ p.chart.toNat ∨ 32 < p.reserve.toNat + otherReserves s i) →
        exec (.stationSet p) s = .next (s.answered .range []))
      ∧ (p.template.toNat < 16 → p.chart.toNat < 8 → p.reserve.toNat + otherReserves s i ≤ 32 →
        ∃ t : State, exec (.stationSet p) s = .next (State.answered t
          (if 1 < p.enable.toNat ∨ 1 < p.follow.toNat ∨ 1023 < p.spread.toNat
              ∨ 63 < p.settle.toNat ∨ 1 < p.mode.toNat ∨ 1023 < p.threshold.toNat
              ∨ 1 < p.curve.toNat ∨ p.ceiling.toNat = 0 ∨ 1023 < p.ceiling.toNat
              ∨ 1023 < p.overblow.toNat ∨ 768 < p.bendRange.toNat ∨ p.cap.toNat = 0
              ∨ 32 < p.cap.toNat ∨ p.cap.toNat < p.reserve.toNat
              ∨ p.transpose.toInt < -48 ∨ 48 < p.transpose.toInt
            then .adjusted else .ok) []))

/-- A STATION_SET that changes enable (R119, R136). From 1 to 0: the station is DISABLED, its note and its breath
state gone, its calibration discarded, its receiver stopped with bit time, assembly, buffer and pending reply
forgotten, a reply being sent ending after the character in transmission, its clip state unsaturated; where reserve
and cap are as they were, the pool is as NOTE_OFF leaves it and the other stations are untouched. Key senses, key
count, class, zero, lip centre and counters are kept. A SYNC waiting goes too (the model's choice, log 20), and the
character in transmission is the one at the model's clock (log 35). From 0 to 1: the station is OFFLINE, its receiver
as it was. -/
def Obligations.DisableAndEnable : Prop :=
  ∀ (s : State) (p : StationSetParams) (i : StationId), p.station.toNat = i.val →
    portTakes s (.stationSet p) = true → p.template.toNat < 16 → p.chart.toNat < 8 →
    p.reserve.toNat + otherReserves s i ≤ 32 →
      ((s.station i).settings.enable = true → p.enable.toNat = 0 → (s.station i).restOk →
        ∃ (t : State) (code : ResultCode), exec (.stationSet p) s = .next (t.answered code [])
          ∧ (t.station i).state = .disabled
          ∧ (t.station i).breath = (s.station i).breath.atRest
          ∧ (t.station i).fingering = (s.station i).fingering.atRest
          ∧ (t.station i).calib = Calibration.fresh
          ∧ (t.station i).stall = none ∧ (t.station i).syncHanded = false
          ∧ t.audio = { s.audio with clip := s.audio.clip.set i false }
          ∧ (p.reserve.toNat = (s.station i).settings.reserve →
              (t.station i).settings.cap = (s.station i).settings.cap →
              NoteEnds s t i ∧ t.faults = s.faults)
          ∧ (t.station i).link =
              { (s.station i).link with
                bitTime := none, character := .absent, assembly := none, buffer := none
                silence := .stopped, waiting := none
                sending := (s.station i).link.sending.map fun x => { x with cut := true } }
          ∧ (t.station i).keySense = (s.station i).keySense
          ∧ (t.station i).keyCount = (s.station i).keyCount
          ∧ (t.station i).cls = (s.station i).cls)
      ∧ ((s.station i).settings.enable = false → p.enable.toNat ≠ 0 → (s.station i).stall = none →
        ∃ (t : State) (code : ResultCode), exec (.stationSet p) s = .next (t.answered code [])
          ∧ (t.station i).state = .offline
          ∧ (t.station i).link = (s.station i).link
          ∧ (t.station i).keySense = (s.station i).keySense
          ∧ (t.station i).keyCount = (s.station i).keyCount
          ∧ (t.station i).cls = (s.station i).cls)

/-- What STATION_SET does at once to the published breath state of a station that keeps its enable setting and is
not stalled (R14, R16, R18, R128): a ceiling below L lowers L and sets CLIP, a bend range below |D| limits D and
clears BEND when it is 0, a changed overblow level clears the overblow history; nothing else of it changes. -/
def Obligations.LoweredSettingsActAtOnce : Prop :=
  ∀ (s : State) (p : StationSetParams) (i : StationId), p.station.toNat = i.val →
    portTakes s (.stationSet p) = true → p.template.toNat < 16 → p.chart.toNat < 8 →
    p.reserve.toNat + otherReserves s i ≤ 32 →
    (s.station i).settings.enable = decide (p.enable.toNat ≠ 0) → (s.station i).stall = none →
      ∃ (t : State) (code : ResultCode), exec (.stationSet p) s = .next (t.answered code [])
        ∧ (t.station i).state = (s.station i).state
        ∧ ∀ ceiling range : Nat,
            ceiling = (if p.ceiling.toNat = 0 then 1 else min 1023 p.ceiling.toNat) →
            range = min 768 p.bendRange.toNat →
              (t.station i).breath =
                (s.station i).breath.actedOn ceiling range
                  (decide (min 1023 p.overblow.toNat ≠ (s.station i).settings.overblow))

/-- KEYSENSE_SET (R45, R169): the whole table is replaced, key 4m + j from bits 2j + 1 to 2j of byte m + 1, and
nothing else changes. -/
def Obligations.KeysenseSetReplacesTheTable : Prop :=
  ∀ (s : State) (b : Byte) (senses : Vector Byte 8) (i : StationId), b.toNat = i.val →
    portTakes s (.keysenseSet b senses) = true →
      ∃ table : Vector KeySense 32,
        exec (.keysenseSet b senses) s =
            .next (State.answered (s.updStation i fun x => { x with keySense := table }) .ok [])
          ∧ ∀ (m : Fin 8) (j : Fin 4),
              table[4 * m.val + j.val] =
                match (senses[m].extractLsb' (2 * j.val) 2).toNat with
                | 0 => .ignore
                | 1 => .press
                | 2 => .release
                | _ => .both

/-- STATION_RESTART by the station's state (R137). DISABLED and OFFLINE: no effect. SYNCED: the buffer is emptied
and the sequence window opened. CALIBRATING, LIVE and LOST: besides, the station is SYNCED, its calibration
discarded, its silence timer stopped, and from LIVE its note has ended by NOTE_OFF and its breath state is gone. The
bit time, a frame in assembly, replies, counters, settings, key count, class, zero and lip centre are kept. -/
def Obligations.StationRestartByState : Prop :=
  ∀ (s : State) (b : Byte) (i : StationId), b.toNat = i.val →
    portTakes s (.stationRestart b) = true →
      ((s.station i).state = .disabled ∨ (s.station i).state = .offline →
        exec (.stationRestart b) s = .next (s.answered .ok []))
      ∧ ((s.station i).state = .synced →
        exec (.stationRestart b) s =
          .next (State.answered (s.updLink i fun l => { l with buffer := none, windowOpen := true }) .ok []))
      ∧ ((s.station i).state = .calibrating ∨ (s.station i).state = .live ∨ (s.station i).state = .lost →
        (s.station i).restOk →
        ∃ t : State, exec (.stationRestart b) s = .next (t.answered .ok [])
          ∧ EngineFrame s t i ∧ t.faults = s.faults ∧ NoteEnds s t i
          ∧ t.station i =
              { s.station i with
                state := .synced
                breath := (s.station i).breath.atRest
                fingering := (s.station i).fingering.atRest
                calib := Calibration.fresh
                stall := none
                link := { (s.station i).link with
                  silence := .stopped, buffer := none, windowOpen := true } })

/-- PANIC (R60, R102, R138): every note is gone without a NOTE_OFF and no onset is pending; every SOUNDING or
RELEASING voice drains as an orphan with its copy, pitch and amplitude; claims and starve list are empty, every
count is 0, and nothing else changes. A RELEASING voice made an orphan so has still to complete its drain in a step
of its own (R116). That a completion reported before for a bound DRAINING voice stays reported when its claim is
removed is the model's (log 13). -/
def Obligations.PanicDrainsThePool : Prop :=
  ∀ s : State, portTakes s .panic = true → ∃ t : State, exec .panic s = .next (t.answered .ok [])
    ∧ SameStores s t ∧ SameDevice s t ∧ t.faults = s.faults ∧ t.tagCounter = s.tagCounter
    ∧ (t.claims = [] ∧ t.starve = [] ∧ t.freeList = s.freeList)
    ∧ (∀ i : StationId, stationCount t i = 0)
    ∧ (∀ i : StationId, t.station i =
        { s.station i with
          fingering := { (s.station i).fingering with note := none, onsetPending := false } })
    ∧ ∀ v : VoiceId,
        t.voice v =
          (match (s.voice v).state with
            | .sounding | .releasing =>
              { s.voice v with
                state := .draining, owner := none, target := (s.voice v).base, glide := .stopped
                completionDue := false }
            | .free | .draining | .faulted => s.voice v)

/-! ### Charts -/

/-- The refusals of chart commands (R28, R31, R38, R41): BUSY while an edit is in flight, RANGE for a position or an
entry that fails its test, FULL for a chart of 128 entries or a store without free cells, the tests in R31's order.
A refused command changes nothing. -/
def Obligations.ChartCommandRefusals : Prop :=
  (∀ (s : State) (c : Instr) (b p : Byte) (e : EntryParams), s.charts.edit ≠ none →
      (c = .chartAppend b e ∨ c = .chartInsert b p e ∨ c = .chartReplace b p e ∨ c = .chartRemove b p
        ∨ c = .chartClear b ∨ c = .chartRead b p) →
      portTakes s c = true → exec c s = .next (s.answered .busy []))
    ∧ (∀ (s : State) (c : Instr) (b p : Byte) (e : EntryParams) (k : ChartId), s.charts.edit = none →
        b.toNat = k.val → portTakes s c = true →
        ((s.charts.lengths[k] < p.toNat ∧ c = .chartInsert b p e)
          ∨ (s.charts.lengths[k] ≤ p.toNat ∧ (c = .chartReplace b p e ∨ c = .chartRemove b p))
          ∨ (¬ EntryPasses e ∧ (c = .chartAppend b e ∨ c = .chartInsert b p e
              ∨ c = .chartReplace b p e))) →
        exec c s = .next (s.answered .range []))
    ∧ ∀ (s : State) (c : Instr) (b p : Byte) (e : EntryParams) (k : ChartId), s.charts.edit = none →
        b.toNat = k.val → portTakes s c = true → EntryPasses e →
        (128 ≤ s.charts.lengths[k] ∨ s.charts.freeCells = 0) →
        (c = .chartAppend b e ∨ (p.toNat ≤ s.charts.lengths[k] ∧ c = .chartInsert b p e)) →
        exec c s = .next (s.answered .full [])

/-- CHART_APPEND and CHART_INSERT, accepted (R32, R33): the entry takes the position, those at and behind it move
one place, the length rises and the free-cell count falls by 1, the work count is 1 for an append and n − p + 1 for
an insertion, and an insertion at n is an append; an insertion above n is refused with RANGE. The list that lookups
see is the old one until the edit completes, and nothing outside the chart store changes. -/
def Obligations.ChartAppendAndInsertEffect : Prop :=
  ∀ (s : State) (b : Byte) (e : EntryParams) (k : ChartId), s.charts.ok → s.charts.edit = none →
    b.toNat = k.val →
      (s.charts.lengths[k] < 128 → 0 < s.charts.freeCells → EntryPasses e →
        (portTakes s (.chartAppend b e) = true → ∃ (x : ChartStore) (y : Entry) (code : ResultCode),
          exec (.chartAppend b e) s = .next (State.answered { s with charts := x } code [])
            ∧ StoredFrom e y
            ∧ (EntryClamps e → code = .adjusted) ∧ (¬ EntryClamps e → code = .ok)
            ∧ x.lists = s.charts.lists
            ∧ x.lengths[k] = s.charts.lengths[k] + 1 ∧ x.freeCells + 1 = s.charts.freeCells
            ∧ (∀ j : ChartId, j ≠ k → x.lengths[j] = s.charts.lengths[j])
            ∧ x.edit = some ⟨k, 0x11, 1, s.charts.lists[k] ++ [y]⟩)
        ∧ ∀ p : Byte, portTakes s (.chartInsert b p e) = true → p.toNat ≤ s.charts.lengths[k] →
          ∃ (x : ChartStore) (y : Entry) (code : ResultCode) (l : List Entry),
          exec (.chartInsert b p e) s = .next (State.answered { s with charts := x } code [])
            ∧ StoredFrom e y
            ∧ (EntryClamps e → code = .adjusted) ∧ (¬ EntryClamps e → code = .ok)
            ∧ x.lists = s.charts.lists
            ∧ x.lengths[k] = s.charts.lengths[k] + 1 ∧ x.freeCells + 1 = s.charts.freeCells
            ∧ (∀ j : ChartId, j ≠ k → x.lengths[j] = s.charts.lengths[j])
            ∧ x.edit = some ⟨k, 0x12, s.charts.lengths[k] - p.toNat + 1, l⟩
            ∧ (∀ m, m < p.toNat → l[m]? = s.charts.lists[k][m]?)
            ∧ l[p.toNat]? = some y
            ∧ (∀ m, p.toNat ≤ m → l[m + 1]? = s.charts.lists[k][m]?)
            ∧ (p.toNat = s.charts.lengths[k] → l = s.charts.lists[k] ++ [y]))
      ∧ ∀ p : Byte, portTakes s (.chartInsert b p e) = true → s.charts.lengths[k] < p.toNat →
          exec (.chartInsert b p e) s = .next (s.answered .range [])

/-- CHART_REPLACE, CHART_REMOVE and CHART_CLEAR, accepted (R34 to R36): the list each produces, the length and the
free-cell count, and the work count; a position at or above the length is refused with RANGE. The list that lookups
see is the old one until the edit completes, and nothing outside the chart store changes. -/
def Obligations.ChartReplaceRemoveAndClearEffect : Prop :=
  ∀ (s : State) (b p : Byte) (k : ChartId), s.charts.ok → s.charts.edit = none → b.toNat = k.val →
    (∀ e : EntryParams, portTakes s (.chartReplace b p e) = true →
        (p.toNat < s.charts.lengths[k] → EntryPasses e →
          ∃ (x : ChartStore) (y : Entry) (code : ResultCode) (l : List Entry),
          exec (.chartReplace b p e) s = .next (State.answered { s with charts := x } code [])
            ∧ StoredFrom e y
            ∧ (EntryClamps e → code = .adjusted) ∧ (¬ EntryClamps e → code = .ok)
            ∧ x.lists = s.charts.lists ∧ x.lengths = s.charts.lengths
            ∧ x.freeCells = s.charts.freeCells
            ∧ x.edit = some ⟨k, 0x13, 1, l⟩
            ∧ l.length = s.charts.lists[k].length ∧ l[p.toNat]? = some y
            ∧ ∀ m, m ≠ p.toNat → l[m]? = s.charts.lists[k][m]?)
        ∧ (s.charts.lengths[k] ≤ p.toNat →
          exec (.chartReplace b p e) s = .next (s.answered .range [])))
      ∧ (portTakes s (.chartRemove b p) = true →
        (p.toNat < s.charts.lengths[k] →
          ∃ (x : ChartStore) (l : List Entry),
          exec (.chartRemove b p) s = .next (State.answered { s with charts := x } .ok [])
            ∧ x.lists = s.charts.lists
            ∧ x.lengths[k] + 1 = s.charts.lengths[k] ∧ x.freeCells = s.charts.freeCells + 1
            ∧ (∀ j : ChartId, j ≠ k → x.lengths[j] = s.charts.lengths[j])
            ∧ x.edit = some ⟨k, 0x14, s.charts.lengths[k] - p.toNat, l⟩
            ∧ (∀ m, m < p.toNat → l[m]? = s.charts.lists[k][m]?)
            ∧ ∀ m, p.toNat ≤ m → l[m]? = s.charts.lists[k][m + 1]?)
        ∧ (s.charts.lengths[k] ≤ p.toNat →
          exec (.chartRemove b p) s = .next (s.answered .range [])))
      ∧ (portTakes s (.chartClear b) = true →
          ∃ x : ChartStore,
          exec (.chartClear b) s = .next (State.answered { s with charts := x } .ok [])
            ∧ x.lists = s.charts.lists
            ∧ x.lengths[k] = 0 ∧ x.freeCells = s.charts.freeCells + s.charts.lengths[k]
            ∧ (∀ j : ChartId, j ≠ k → x.lengths[j] = s.charts.lengths[j])
            ∧ x.edit = some ⟨k, 0x15,
                if s.charts.lengths[k] = 0 then 1 else s.charts.lengths[k], []⟩)

/-- EDIT_COMPLETION (R37, R40): the edited chart's list becomes the one the edit produces and the edit record is
empty; then each stalled station makes its lookup on the new list, with the snapshot it holds, and finishes the work
it holds: the conditions, and the REPLY of a frame. No station is stalled afterwards, a station that was not stalled
is as it was but for its slots' states, and with no station stalled nothing else changes at all. That the stations
come in the order the row carries, those it does not list after them, is the model's (log 12). -/
def Obligations.EditCompletionSwapsTheList : Prop :=
  (∀ (s : State) (e : Edit) (order : List StationId), s.charts.edit = some e →
    ∃ t : State, exec (.editCompletion order) s = .next t
      ∧ t.charts.lists[e.chart] = e.result
      ∧ (∀ c : ChartId, c ≠ e.chart → t.charts.lists[c] = s.charts.lists[c])
      ∧ (t.charts.edit = none ∧ t.charts.lengths = s.charts.lengths
          ∧ t.charts.freeCells = s.charts.freeCells)
      ∧ (t.templates = s.templates ∧ t.waves = s.waves ∧ t.memory = s.memory) ∧ SameDevice s t
      ∧ (∀ i : StationId, (t.station i).stall = none)
      ∧ (∀ i : StationId, (s.station i).stall = none → SameStation s t i)
      ∧ ((∀ i : StationId, (s.station i).stall = none) → t = { s with charts := t.charts })
      ∧ ∃ stations : List StationId, stations.Nodup ∧ (∀ i, i ∈ stations)
          ∧ (order.Nodup → order <+: stations)
          ∧ t = stations.foldl resumeStall { s with charts := t.charts })
    ∧ (∀ (s : State) (i : StationId), (s.station i).stall = none → resumeStall s i = s)
    ∧ ∀ (s u : State) (i : StationId) (w : StallWork), (s.station i).stall = some w →
        u = s.updStation i (fun x => { x with stall := none }) →
          (w = .expiry → resumeStall s i = evalConditions (resolution u i) i)
          ∧ ∀ seq, w = .frame seq →
              EndsWithReply (evalConditions (resolution u i) i) (resumeStall s i) i seq

/-- CHART_READ and CHART_INFO (R41, R42, R169): BUSY while an edit is in flight, RANGE for a position at or above
the length, else the length and the entry's twelve bytes; the lengths, the free-cell count and the edit record.
Neither changes anything. -/
def Obligations.ChartReadsReturnTheStore : Prop :=
  (∀ (s : State) (b p : Byte), portTakes s (.chartRead b p) = true →
      (s.charts.edit ≠ none → exec (.chartRead b p) s = .next (s.answered .busy []))
      ∧ (s.charts.edit = none → 8 ≤ b.toNat → exec (.chartRead b p) s = .next (s.answered .range []))
      ∧ ∀ k : ChartId, s.charts.edit = none → s.charts.ok → b.toNat = k.val →
          (s.charts.lengths[k] ≤ p.toNat → exec (.chartRead b p) s = .next (s.answered .range []))
          ∧ ∀ e, s.charts.lists[k][p.toNat]? = some e →
              exec (.chartRead b p) s =
                .next (s.answered .ok
                  ([BitVec.ofNat 8 s.charts.lengths[k]] ++ be32 e.mask.toNat ++ be32 e.pattern.toNat
                    ++ [BitVec.ofNat 8 e.gives.note]
                    ++ [match e.gives.regKey with | some r => BitVec.ofNat 8 r.val | none => 0xFF]
                    ++ [BitVec.ofNat 8 e.gives.step] ++ [if e.gives.breathReg then 1 else 0])))
    ∧ ∀ s : State, portTakes s .chartInfo = true →
        exec .chartInfo s =
          .next (s.answered .ok
            ((List.finRange 8).map (fun c : ChartId => BitVec.ofNat 8 s.charts.lengths[c])
              ++ be16 s.charts.freeCells
              ++ (match s.charts.edit with
                | some e => [BitVec.ofNat 8 e.chart.val, e.cmd]
                | none => [0xFF, 0x00])))

/-- A lookup hands back the fields of the first entry that fits, and a miss exactly when no entry fits (R29). -/
def Obligations.LookupFindsTheFirstFit : Prop :=
  ∀ (l : List Entry) (snapshot : Word),
    (lookup l snapshot = none ↔ ∀ e ∈ l, ¬ FitsKeys e snapshot)
      ∧ ∀ g, lookup l snapshot = some g ↔
          ∃ (n : Nat) (e : Entry), l[n]? = some e ∧ FitsKeys e snapshot ∧ e.gives = g
            ∧ ∀ (m : Nat) (e' : Entry), m < n → l[m]? = some e' → ¬ FitsKeys e' snapshot

/-! ### Templates and waves -/

/-- TEMPLATE_SET (R69, R70): refused with RANGE for a layer count other than 1 to 3 or a wave reference that fails
its test in a layer below the count; else the template holds the layers below the count, each field brought into
its range, answered ADJUSTED exactly when one of them was. Nothing else changes. -/
def Obligations.TemplateSetDefines : Prop :=
  ∀ (s : State) (b count : Byte) (l0 l1 l2 : LayerParams) (n : TemplateId), b.toNat = n.val →
    portTakes s (.templateSet b count l0 l1 l2) = true →
      ((count.toNat = 0 ∨ 3 < count.toNat) →
        exec (.templateSet b count l0 l1 l2) s = .next (s.answered .range []))
      ∧ (1 ≤ count.toNat → count.toNat ≤ 3 →
          (∃ l ∈ [l0, l1, l2].take count.toNat, ¬ WavesPass s l) →
          exec (.templateSet b count l0 l1 l2) s = .next (s.answered .range []))
      ∧ (1 ≤ count.toNat → count.toNat ≤ 3 →
          (∀ l ∈ [l0, l1, l2].take count.toNat, WavesPass s l) →
          ∃ (layers : List Layer) (code : ResultCode),
            exec (.templateSet b count l0 l1 l2) s =
                .next (State.answered { s with templates := s.templates.set n layers } code [])
              ∧ layers.length = count.toNat
              ∧ (∀ (m : Nat) (l : LayerParams) (x : Layer),
                  [l0, l1, l2][m]? = some l → layers[m]? = some x → LayerStoredFrom l x)
              ∧ ((∃ l ∈ [l0, l1, l2].take count.toNat, LayerAdjusts l) → code = .adjusted)
              ∧ ((∀ l ∈ [l0, l1, l2].take count.toNat, ¬ LayerAdjusts l) → code = .ok))

/-- TEMPLATE_READ returns the template's state, layer count and three records, all bytes 0 beyond the count, and
changes nothing (R73); TEMPLATE_CLEAR makes the template undefined and changes nothing else (R72). -/
def Obligations.TemplateReadAndClear : Prop :=
  ∀ (s : State) (b : Byte) (n : TemplateId), b.toNat = n.val →
    (portTakes s (.templateRead b) = true → s.templates[n].length ≤ 3 → ∃ r : List Byte,
      exec (.templateRead b) s = .next (s.answered .ok r)
        ∧ r.length = 38
        ∧ r[0]? = some (if s.templates[n] = [] then 0 else 1)
        ∧ r[1]? = some (BitVec.ofNat 8 s.templates[n].length)
        ∧ ∀ m, m < 3 → (r.drop (2 + 12 * m)).take 12 =
            (match s.templates[n][m]? with
              | some l =>
                be8 l.waveA.val ++ orFF l.waveB ++ signed8 l.tone.transpose ++ signed8 l.tone.fine
                  ++ be8 l.tone.level ++ be8 l.tone.pan ++ be8 l.tone.mask.toNat
                  ++ be8 (match l.tone.sense with | .any => 0 | .noneOf => 1)
                  ++ be16 l.tone.attack ++ be16 l.tone.release
              | none => List.replicate 12 0))
      ∧ (portTakes s (.templateClear b) = true →
        exec (.templateClear b) s =
          .next (State.answered { s with templates := s.templates.set n [] } .ok []))

/-- WAVE_DEFINE and WAVE_DELETE (R122, R123): RANGE for k outside 8 to 12 or a region past 65,535, IN_USE for a
defined wave that is referred to, else the descriptor written or made undefined with OK. Nothing else changes. -/
def Obligations.WaveDefineAndDelete : Prop :=
  ∀ (s : State) (b k : Byte) (start : Half) (w : WaveId), b.toNat = w.val →
    (portTakes s (.waveDefine b start k) = true →
      ((k.toNat < 8 ∨ 12 < k.toNat ∨ 65536 < start.toNat + 2 ^ k.toNat) →
        exec (.waveDefine b start k) s = .next (s.answered .range []))
      ∧ (8 ≤ k.toNat → k.toNat ≤ 12 → start.toNat + 2 ^ k.toNat ≤ 65536 →
        (s.waves[w] ≠ none → RefersTo s w →
          exec (.waveDefine b start k) s = .next (s.answered .inUse []))
        ∧ ((s.waves[w] = none ∨ ¬ RefersTo s w) →
          exec (.waveDefine b start k) s =
            .next (State.answered
              { s with waves := s.waves.set w (some ⟨start.toNat, k.toNat⟩) } .ok []))))
      ∧ (portTakes s (.waveDelete b) = true →
        (s.waves[w] ≠ none → RefersTo s w → exec (.waveDelete b) s = .next (s.answered .inUse []))
        ∧ ((s.waves[w] = none ∨ ¬ RefersTo s w) →
          exec (.waveDelete b) s =
            .next (State.answered { s with waves := s.waves.set w none } .ok [])))

/-- Runs of samples (R124, R125). WAVE_WRITE and WAVE_READ are refused with RANGE for a count of 0 or above 64 or a
run past 65,535. Else WAVE_WRITE stores every sample of the run with good parity, every cell outside the run reads
as before, and nothing else changes; WAVE_READ returns each of the n samples as stored, most significant byte first,
with its parity status, and changes nothing. The cells of sample a are 3a, 3a + 1 and 3a + 2 (the model's layout,
log 7). -/
def Obligations.WaveRunsAreWrittenAndRead : Prop :=
  (∀ (s : State) (start : Half) (count : Byte) (samples : List Half),
    (Instr.waveWrite start count samples).wellFormed = true →
    portTakes s (.waveWrite start count samples) = true →
      ((count.toNat = 0 ∨ 64 < count.toNat ∨ 65536 < start.toNat + count.toNat) →
        exec (.waveWrite start count samples) s = .next (s.answered .range []))
      ∧ (MemoryOk s → 1 ≤ count.toNat → count.toNat ≤ 64 → start.toNat + count.toNat ≤ 65536 →
        ∃ m : Memory,
          exec (.waveWrite start count samples) s = .next (State.answered { s with memory := m } .ok [])
            ∧ samples.length = count.toNat ∧ m.wf = true
            ∧ (∀ k x, samples[k]? = some x →
                m.sampleBits (start.toNat + k) = x ∧ m.parityFailed (start.toNat + k) = false)
            ∧ ∀ a, a < 3 * start.toNat ∨ 3 * (start.toNat + count.toNat) ≤ a →
                m.readCell a = s.memory.readCell a))
    ∧ ∀ (s : State) (start : Half) (count : Byte), portTakes s (.waveRead start count) = true →
      ((count.toNat = 0 ∨ 64 < count.toNat ∨ 65535 < start.toNat + count.toNat - 1) →
        exec (.waveRead start count) s = .next (s.answered .range []))
      ∧ (1 ≤ count.toNat → count.toNat ≤ 64 → start.toNat + count.toNat - 1 ≤ 65535 →
        ∃ r : List Byte, exec (.waveRead start count) s = .next (s.answered .ok r)
          ∧ r.length = 3 * count.toNat
          ∧ ∀ k, k < count.toNat → (r.drop (3 * k)).take 3 =
              be16 (s.memory.sampleBits (start.toNat + k)).toNat
                ++ [if s.memory.parityFailed (start.toNat + k) then 1 else 0])

/-! ### The voice pool -/

/-- The order in which an accepted STATION_SET acts (R128): the settings stored together; a disable or an enable;
the at-once effects on the breath state; a stalled lookup whose chart setting now names a chart with no edit (R40);
the removals of a lowered cap (R101); the starve list's service where reserve or cap changed (R96). The removals go
one by one until the count is the cap: the station's RELEASING voice released first, then its SOUNDING voice of the
highest layer and earliest claim, whose slot starves, then the claim made last, whose slot starves; no fault is
taken. That equal times go by the lower voice number is the model's (log 33). The service gives the head of the free
list to each entry in turn whose station passes the free-voice test, and leaves the others. That a completion
reported before for a bound voice stays reported when its claim is removed is the model's (log 13). -/
def Obligations.StationSetActsInItsOrder : Prop :=
  (∀ (s : State) (p : StationSetParams) (i : StationId), p.station.toNat = i.val →
    portTakes s (.stationSet p) = true → p.template.toNat < 16 → p.chart.toNat < 8 →
    p.reserve.toNat + otherReserves s i ≤ 32 →
    ∃ (t u0 u1 u2 u3 u4 : State) (code : ResultCode) (old new : Settings),
      exec (.stationSet p) s = .next (t.answered code [])
        ∧ old = (s.station i).settings ∧ new = (t.station i).settings
        ∧ u0 = s.updStation i (fun x => { x with settings := new })
        ∧ (old.enable = new.enable → u1 = u0)
        ∧ (old.enable = true → new.enable = false → u1 = disableStation u0 i)
        ∧ (old.enable = false → new.enable = true →
            u1 = u0.updStation i fun x => { x with state := .offline })
        ∧ u2 = (u1.updStation i fun x =>
            { x with
              breath := x.breath.actedOn new.ceiling new.bendRange
                (decide (new.overblow ≠ old.overblow)) })
        ∧ u3 = (if s.charts.busy new.chart then u2 else resumeStall u2 i)
        ∧ u4 = (if new.cap < old.cap then lowerToCap u3 i else u3)
        ∧ t = (if new.reserve = old.reserve ∧ new.cap = old.cap then u4 else serveStarved u4))
    ∧ (∀ (s : State) (i : StationId), stationCount s i ≤ (s.station i).settings.cap →
        lowerToCap s i = s)
    ∧ (∀ (s : State) (i : StationId), PoolOk s → (s.station i).settings.cap < stationCount s i →
        ∃ t : State, lowerToCap s i = lowerToCap t i ∧ stationCount t i < stationCount s i
          ∧ PoolOk t ∧ AllocatorFrame s t ∧ t.freeList = s.freeList ∧ t.faults = s.faults
          ∧ (∀ v, FirstIn (OwnedIn s i .releasing) (ReleasedBefore s) v →
              OrphanedFrom s t v ∧ t.starve = s.starve ∧ t.stations = s.stations)
          ∧ (∀ v o, NoneIn (OwnedIn s i .releasing) →
              FirstIn (OwnedIn s i .sounding) (LayerBefore s) v → (s.voice v).owner = some o →
              OrphanedFrom s t v ∧ StarvedNow s t i o.tag o.layer)
          ∧ ∀ (before after : List Claim) (c : Claim), NoneIn (OwnedIn s i .releasing) →
              NoneIn (OwnedIn s i .sounding) → s.claims = before ++ c :: after → c.station = i →
              (∀ x ∈ after, x.station ≠ i) →
              t.voices = s.voices ∧ StarvedNow s t i c.tag c.layer
                ∧ t.claims = s.claims.filter
                    (fun x => ¬ (x.station = i ∧ x.tag = c.tag ∧ x.layer = c.layer)))
    ∧ (∀ s : State, serveStarved s = serveEntries s.starve s)
    ∧ (∀ s : State, serveEntries [] s = s)
    ∧ ∀ (s : State) (e : Starved) (rest : List Starved),
        (s.freeList = [] → serveEntries (e :: rest) s = s)
        ∧ (¬ PassesFreeTest s e.station s.freeList.length →
            serveEntries (e :: rest) s = serveEntries rest s)
        ∧ ∀ v free, s.freeList = v :: free → PassesFreeTest s e.station s.freeList.length →
            ∃ t : State, serveEntries (e :: rest) s = serveEntries rest t
              ∧ GivenTo s t v e.station e.tag e.layer ∧ SameOtherVoices s t v ∧ AllocatorFrame s t
              ∧ t.freeList = free ∧ t.starve = s.starve.erase e ∧ t.claims = s.claims
              ∧ t.faults = s.faults

/-- A claim below the cap takes the head of the free list when the free-voice test passes (R84, R86); otherwise it
takes the first victim of the tiers open to it (R85, R87, R88), and where there is none the slot starves with
LAYER_STARVED (R89). Nothing outside the pool, the slots and the fault record changes. That the bits of a fault
detail that R169 does not name are 0 is the model's (log 34). -/
def Obligations.ClaimsAreServed : Prop :=
  ∀ (s : State) (i : StationId) (tag : Nat) (layer : LayerId),
    AllocatorFrame s (claimVoice s i tag layer)
      ∧ (∀ v rest, s.freeList = v :: rest → PassesFreeTest s i s.freeList.length →
          GivenTo s (claimVoice s i tag layer) v i tag layer
            ∧ SameOtherVoices s (claimVoice s i tag layer) v
            ∧ (claimVoice s i tag layer).freeList = rest
            ∧ (claimVoice s i tag layer).claims = s.claims
            ∧ (claimVoice s i tag layer).starve = s.starve
            ∧ (claimVoice s i tag layer).faults = s.faults)
      ∧ ((s.freeList = [] ∨ ¬ PassesFreeTest s i s.freeList.length) →
          (∀ v, VictimOf s i tag layer v → StolenFor s (claimVoice s i tag layer) v i tag layer)
          ∧ ((∀ v, ¬ VictimOf s i tag layer v) →
              (claimVoice s i tag layer).voices = s.voices
                ∧ (claimVoice s i tag layer).freeList = s.freeList
                ∧ (claimVoice s i tag layer).claims = s.claims
                ∧ (claimVoice s i tag layer).starve = s.starve ++ [⟨i, tag, layer⟩]
                ∧ (∀ x, slotOf s i tag layer = some x →
                    slotOf (claimVoice s i tag layer) i tag layer = some { x with state := .starved })
                ∧ (claimVoice s i tag layer).faults =
                    s.faults.take ⟨.layerStarved, some i, none, some tag,
                      BitVec.ofNat 32 layer.val, s.timebase⟩))

/-- The ends of fades and the retirement of a held voice (R91, R94, R95, R116, R162). A RELEASING voice or an orphan
whose completion is reported, and a FAULTED voice that VOICE_RETIRE names, pass through the arbiter; VOICE_RETIRE of
a voice in any other state is answered NOT_HELD. A bound voice whose completion is reported is handed over to its
claim's slot, the counts unchanged. That a completion is a row of its own is the model's (log 13). -/
def Obligations.CompletionsAreActedOn : Prop :=
  (∀ (s : State) (v : VoiceId), (s.voice v).state = .releasing → (s.voice v).completionDue = true →
      ∃ t : State, exec (.releaseCompletion v) s = .next t ∧ PassedOn s t v ∧ AllocatorFrame s t)
    ∧ (∀ (s : State) (v : VoiceId), (s.voice v).state = .draining → claimOf s v = none →
        (s.voice v).completionDue = true →
        ∃ t : State, exec (.orphanDrainCompletion v) s = .next t ∧ PassedOn s t v ∧ AllocatorFrame s t)
    ∧ (∀ (s : State) (b : Byte) (v : VoiceId), b.toNat = v.val → portTakes s (.voiceRetire b) = true →
        ((s.voice v).state = .faulted →
          ∃ t : State, exec (.voiceRetire b) s = .next (t.answered .ok [])
            ∧ PassedOn s t v ∧ AllocatorFrame s t)
        ∧ ((s.voice v).state ≠ .faulted →
          exec (.voiceRetire b) s = .next (s.answered .notHeld [])))
    ∧ ∀ (s : State) (v : VoiceId) (c : Claim), (s.voice v).state = .draining → claimOf s v = some c →
        (s.voice v).completionDue = true →
        ∃ t : State, exec (.drainCompletion v) s = .next t ∧ AllocatorFrame s t
          ∧ GivenTo s t v c.station c.tag c.layer ∧ SameOtherVoices s t v
          ∧ t.claims = s.claims.filter (fun x => x.voice ≠ v) ∧ t.freeList = s.freeList
          ∧ t.starve = s.starve ∧ t.faults = s.faults
          ∧ ∀ i : StationId, stationCount t i = stationCount s i

/-- NOTE_OFF for a sounding note (R92, R97 to R99): the voices of VOICED slots release from the present timebase,
the claims of CLAIMING slots and the starve entries of STARVED slots are removed, the note is gone, and nothing else
of the pool changes. A station with no note has none to end. That a completion reported before for the voice of a
removed claim stays reported is the model's (log 13). -/
def Obligations.NoteOffLetsTheVoicesGo : Prop :=
  (∀ (s : State) (i : StationId), s.note i = none → noteOff s i = s)
    ∧ ∀ (s : State) (i : StationId) (n : NoteRecord), s.note i = some n →
    EngineFrame s (noteOff s i) i
      ∧ (noteOff s i).station i =
          { s.station i with fingering := { (s.station i).fingering with note := none } }
      ∧ (∀ v, (∃ x ∈ n.slots, x.state = .voiced v) → (s.voice v).state = .sounding →
          (noteOff s i).voice v = (s.voice v).releasedAt s.timebase)
      ∧ (∀ v, (∀ x ∈ n.slots, x.state ≠ .voiced v) → (noteOff s i).voice v = s.voice v)
      ∧ (noteOff s i).freeList = s.freeList ∧ (noteOff s i).faults = s.faults
      ∧ ((noteOff s i).claims.Sublist s.claims
        ∧ ∀ c, c ∈ (noteOff s i).claims ↔
            c ∈ s.claims ∧ ¬ (c.station = i ∧ c.tag = n.tag
              ∧ ∃ x ∈ n.slots, x.layer = c.layer ∧ ∃ v, x.state = .claiming v))
      ∧ ((noteOff s i).starve.Sublist s.starve
        ∧ ∀ e, e ∈ (noteOff s i).starve ↔
            e ∈ s.starve ∧ ¬ (e.station = i ∧ e.tag = n.tag
              ∧ ∃ x ∈ n.slots, x.layer = e.layer ∧ x.state = .starved))

/-- The layer conditions (R64, R79, R92, R97, R98): a note's slots are evaluated in layer order, 0 to 2, and a
SILENT station has none. A true condition claims for a DORMANT slot and leaves any other as it is; a false one
leaves a DORMANT slot as it is and makes any other DORMANT, its voice released, its claim cancelled or its starve
entry removed. That a completion reported before for the voice of a cancelled claim stays reported is the model's
(log 13). -/
def Obligations.SlotsFollowTheirConditions : Prop :=
  (∀ (s : State) (i : StationId), s.note i = none → evalConditions s i = s)
    ∧ (∀ (s : State) (i : StationId) (n : NoteRecord), s.note i = some n →
        evalConditions s i = evalSlot i n.tag (evalSlot i n.tag (evalSlot i n.tag s 0) 1) 2)
    ∧ (∀ (s : State) (i : StationId) (tag : Nat) (layer : LayerId), slotOf s i tag layer = none →
        evalSlot i tag s layer = s)
    ∧ ∀ (s : State) (i : StationId) (tag : Nat) (layer : LayerId) (x : Slot),
    slotOf s i tag layer = some x →
      (ConditionTrue x.copy.tone (s.station i).breath.ind →
        (x.state = .dormant → evalSlot i tag s layer = claimVoice s i tag layer)
        ∧ (x.state ≠ .dormant → evalSlot i tag s layer = s))
      ∧ (¬ ConditionTrue x.copy.tone (s.station i).breath.ind →
        (x.state = .dormant → evalSlot i tag s layer = s)
        ∧ (x.state ≠ .dormant → AllocatorFrame s (evalSlot i tag s layer)
            ∧ slotOf (evalSlot i tag s layer) i tag layer = some { x with state := .dormant }
            ∧ (evalSlot i tag s layer).freeList = s.freeList
            ∧ (evalSlot i tag s layer).faults = s.faults)
        ∧ (∀ v, x.state = .voiced v →
            ((s.voice v).state = .sounding →
              (evalSlot i tag s layer).voice v = (s.voice v).releasedAt s.timebase)
            ∧ SameOtherVoices s (evalSlot i tag s layer) v
            ∧ (evalSlot i tag s layer).claims = s.claims
            ∧ (evalSlot i tag s layer).starve = s.starve)
        ∧ (∀ v, x.state = .claiming v →
            (evalSlot i tag s layer).voices = s.voices
              ∧ (evalSlot i tag s layer).claims =
                  s.claims.filter (fun c => ¬ (c.station = i ∧ c.tag = tag ∧ c.layer = layer))
              ∧ (evalSlot i tag s layer).starve = s.starve)
        ∧ (x.state = .starved →
            (evalSlot i tag s layer).voices = s.voices
              ∧ (evalSlot i tag s layer).claims = s.claims
              ∧ (evalSlot i tag s layer).starve = s.starve.filter (fun e => e ≠ ⟨i, tag, layer⟩)))

/-- NOTE_ON (R55, R61, R62, R75, R76). A tag is in use while a note record, a SOUNDING, RELEASING or FAULTED voice's
owner, or the claim that a DRAINING voice is bound to carries it. A note takes the first value from the tag counter
on, 255 followed by 1, that is not in use; the counter then stands at the value after it. Its record has the number,
RAISED, and the station's template, or none where that is undefined; a DORMANT slot for each layer, in layer order,
with the layer's fields and its waves' regions as they stand. Onset pending is cleared, and the conditions are
evaluated. -/
def Obligations.NoteOnTakesATagAndCopiesTheTemplate : Prop :=
  (∀ (s : State) (tag : Nat), tagInUse s tag = true ↔
      (∃ i n, s.note i = some n ∧ n.tag = tag)
        ∨ (∃ v o, ((s.voice v).state = .sounding ∨ (s.voice v).state = .releasing
              ∨ (s.voice v).state = .faulted)
            ∧ (s.voice v).owner = some o ∧ o.tag = tag)
        ∨ ∃ v c, (s.voice v).state = .draining ∧ claimOf s v = some c ∧ c.tag = tag)
    ∧ ∀ s : State, 1 ≤ s.tagCounter → s.tagCounter ≤ 255 →
    tagInUse s (freeTag s 255 s.tagCounter) = false
      ∧ (∃ n, n < 255 ∧ freeTag s 255 s.tagCounter = (s.tagCounter - 1 + n) % 255 + 1
          ∧ ∀ m, m < n → tagInUse s ((s.tagCounter - 1 + m) % 255 + 1) = true)
      ∧ ∀ (i : StationId) (number : Nat) (raised : Bool) (layers : List Layer),
          layers = s.templates[(s.station i).settings.template] →
          (noteOn s i number raised).tagCounter =
              (if freeTag s 255 s.tagCounter = 255 then 1 else freeTag s 255 s.tagCounter + 1)
            ∧ ∃ n : NoteRecord,
              noteOn s i number raised =
                  evalConditions
                    ({ s with tagCounter := (noteOn s i number raised).tagCounter }.updFingering i fun g =>
                      { g with note := some n, onsetPending := false }) i
                ∧ n.tag = freeTag s 255 s.tagCounter ∧ n.number = number ∧ n.raised = raised
                ∧ n.template = (if layers = [] then none else some (s.station i).settings.template)
                ∧ n.slots.length = min 3 layers.length
                ∧ ∀ (k : Nat) (x : Slot) (l : Layer), n.slots[k]? = some x → layers[k]? = some l →
                    x.layer.val = k ∧ x.state = .dormant ∧ x.copy.tone = l.tone
                      ∧ x.copy.waveA.wave = l.waveA
                      ∧ (∀ r, s.waves[l.waveA] = some r → x.copy.waveA.region = r)
                      ∧ x.copy.waveB.map WaveCopy.wave = l.waveB
                      ∧ ∀ b r, x.copy.waveB = some b → s.waves[b.wave] = some r → b.region = r

/-! ### The breath links -/

/-- Characters (R141, R142, R144, R145). The line is not heard without a bit time, while DISABLED, during the
power-on clear or, which is the model's reading (log 10), while RST_N is asserted. A line at rest begins nothing;
from its falling edge on, each bit is sampled at the middle of its bit time, n × T + T / 2 MCLK periods after the
edge, and what has been sampled so far is the character in assembly. A start bit of 1 abandons the character; a stop
bit of 0 is a framing error, which abandons the frame too, and the receiver then samples once a bit time until it
reads 1, a line held at 0 taking no further fault. 0x55 with its mark bit 1 is left to the SYNC detector; a
frame-start character begins a frame of kind 1, 2 or 3 and is otherwise dropped with LINK_PROTOCOL, an incomplete
frame being dropped first; a data character joins the frame in assembly, or is dropped with LINK_PROTOCOL where
there is none. That the row carries the line's levels period by period, in one row or in several, is the model's
(log 19), as is that the bits of a fault detail that R169 does not name are 0 (log 34). -/
def Obligations.CharactersAreFramed : Prop :=
  (∀ (s : State) (i : StationId) (c : Instr) (levels : List Bool), GivesLine c i levels →
      ¬ Listens s i → exec c s = .next s)
    ∧ (∀ (s t : State) (i : StationId) (c1 c2 c : Instr) (before after : List Bool),
      GivesLine c1 i before → GivesLine c2 i after → GivesLine c i (before ++ after) →
      exec c1 s = .next t → exec c s = exec c2 t)
    ∧ (∀ (s : State) (i : StationId) (T e : Nat), Listens s i → (s.station i).link.bitTime = some T →
      (s.station i).link.character = .heldLow e → e < T →
        (∀ (c : Instr) (levels : List Bool), GivesLine c i levels → (∀ b ∈ levels, b = false) →
          ∃ e', e' < T ∧ exec c s =
            .next (s.updLink i fun l => { l with character := .heldLow e' }))
        ∧ ∀ (c : Instr) (levels : List Bool), GivesLine c i levels → levels.length = T - e →
          exec c s =
            .next (s.updLink i fun l =>
              { l with character := if levels.getLast? = some true then .absent else .heldLow 0 }))
    ∧ ∀ (s : State) (i : StationId) (T : Nat) (c : Instr) (levels : List Bool),
      ListensAt s i T → GivesLine c i levels →
      ((∀ b ∈ levels, b = true) → exec c s = .next s)
      ∧ (levels[0]? = some false → levels[T / 2]? = some true → levels.length = T / 2 + 1 →
          exec c s = .next s)
      ∧ (levels[0]? = some false → levels[T / 2]? ≠ some true → levels.length ≤ 10 * T + T / 2 →
          ∃ bits : List Bool, (∀ n, bits[n]? = levels[n * T + T / 2]?)
            ∧ exec c s =
              .next (s.updLink i fun l =>
                { l with character := .assembling (levels.length - 1) bits }))
      ∧ (∀ (d : Byte) (mark : Bool), CarriesCharacter T levels d mark false →
          exec c s =
            .next { s.updLink i fun l =>
                { l with
                  character := .heldLow 0
                  assembly := none
                  counters := { l.counters with framing := min 65535 (l.counters.framing + 1) } } with
              faults := s.faults.take
                ⟨.linkFraming, some i, none, none,
                  BitVec.ofNat 32 (d.toNat + if mark then 256 else 0), s.timebase⟩ })
      ∧ (CarriesCharacter T levels 0x55 true true →
          exec c s = .next s)
      ∧ (∀ d : Byte, d ≠ 0x55 → CarriesCharacter T levels d true true →
          (∀ a, (s.station i).link.assembly = some a →
            exec c s = exec c (afterIncomplete s i a))
          ∧ ((s.station i).link.assembly = none →
            (∀ k : FrameKind,
                d.toNat / 16 = (match k with | .hello => 1 | .play => 2 | .hush => 3) →
                exec c s =
                  .next (s.updLink i fun l =>
                    { l with
                      assembly := some
                        { kind := k, seq := d.toNat % 16,
                          expected := (match k with | .hello => 5 | .play => 10 | .hush => 2),
                          chars := [d] } }))
            ∧ ((d.toNat / 16 = 0 ∨ 4 ≤ d.toNat / 16) →
                exec c s =
                  .next (afterProtocolFault s i (d.toNat + 4096)))))
      ∧ ∀ d : Byte, CarriesCharacter T levels d false true →
          ((s.station i).link.assembly = none →
            exec c s =
              .next (afterProtocolFault s i (d.toNat + 2 * 4096)))
          ∧ ∀ a : FrameAssembly, (s.station i).link.assembly = some a →
            a.chars.length + 1 ≠ a.expected →
            exec c s =
              .next (s.updLink i fun l =>
                { l with assembly := some { a with chars := a.chars ++ [d] } })

/-- A frame's last character (R146 to R150): a sum that is not 0 modulo 256 drops it with LINK_CHECK; a stale number
drops it and counts it; a frame that passes is lost with LINK_OVERRUN while the buffer is occupied, and is else
accepted: into the buffer with its content, the window's outcome taking effect, the silence timer restarted in
CALIBRATING and LIVE. That the bits of a fault detail that R169 does not name are 0 is the model's (log 34). -/
def Obligations.CompleteFramesAreCheckedAndAccepted : Prop :=
  ∀ (s : State) (i : StationId) (T : Nat) (c : Instr) (levels : List Bool) (d : Byte) (a : FrameAssembly)
      (chars : List Byte) (sum : Nat),
    ListensAt s i T → GivesLine c i levels → CarriesCharacter T levels d false true → (s.station i).link.assembly = some a →
    a.chars.length + 1 = a.expected → chars = a.chars ++ [d] →
    sum = (chars.map BitVec.toNat).sum % 256 →
      (sum ≠ 0 →
        exec c s =
          .next { s.updLink i fun l =>
              { l with
                assembly := none
                counters := { l.counters with check := min 65535 (l.counters.check + 1) } } with
            faults := s.faults.take
              ⟨.linkCheck, some i, none, none,
                BitVec.ofNat 32 ((a.kind.startChar a.seq).toNat + sum * 256), s.timebase⟩ })
      ∧ (∀ last, sum = 0 → (s.station i).link.windowOpen = false →
          (s.station i).link.lastSeq = some last →
          ((a.seq + 16 - last) % 16 = 0 ∨ 9 ≤ (a.seq + 16 - last) % 16) →
          exec c s =
            .next (s.updLink i fun l =>
              { l with
                assembly := none
                counters := { l.counters with stale := min 65535 (l.counters.stale + 1) } }))
      ∧ (∀ missed f, sum = 0 → WindowPasses (s.station i).link a.seq missed →
          (s.station i).link.buffer = some f →
          exec c s =
            .next { s.updLink i fun l => { l with assembly := none } with
              faults := s.faults.take
                ⟨.linkOverrun, some i, none, none,
                  BitVec.ofNat 32 (a.kind.startChar a.seq).toNat, s.timebase⟩ })
      ∧ ∀ missed, sum = 0 → WindowPasses (s.station i).link a.seq missed →
          (s.station i).link.buffer = none →
          exec c s =
            .next (s.updStation i fun x =>
              { x with
                link :=
                  { x.link with
                    assembly := none
                    buffer := some
                      { seq := a.seq
                        content :=
                          (match a.kind with
                          | .hello =>
                            .hello (chars.getD 1 0).toNat (chars.getD 2 0).toNat (chars.getD 3 0).toNat
                          | .play =>
                            .play (chars.getD 4 0 ++ chars.getD 3 0 ++ chars.getD 2 0 ++ chars.getD 1 0)
                              (chars.getD 6 0 ++ chars.getD 5 0).toNat
                              (chars.getD 8 0 ++ chars.getD 7 0).toNat
                          | .hush => .hush) }
                    lastSeq := some a.seq
                    windowOpen := false
                    counters :=
                      { x.link.counters with missed := min 65535 (x.link.counters.missed + missed) }
                    silence :=
                      if x.state = .calibrating ∨ x.state = .live then .running 1152
                      else x.link.silence } })

/-- SYNC (R142, R143): a pattern is accepted exactly when nine intervals lie between three and five quarters of the
nearest integer to a ninth of their sum, which is 8 to 99, and the stop bit is 1; otherwise it is ignored. An
incomplete frame is then dropped with LINK_PROTOCOL, the bit time is learned, the buffer and the pending reply are
discarded, the window is opened, and the SYNC is handed to the engine, which takes it at once if it is stalled.
Taking it (R126, R129, R150) makes the station SYNCED, its note ended by NOTE_OFF, its breath state and a
calibration in progress gone and its silence timer stopped; bit time, key count, class, zero, lip centre and
counters are kept and no fault is taken. The model's are: that a SYNC is ignored while RST_N is asserted (log 10),
that the bounds are inclusive (log 19), and that a SYNC_TAKEN with none handed over changes nothing (log 2). That
the bits of a fault detail that R169 does not name are 0 is the model's (log 34). -/
def Obligations.SyncIsLearnedAndTaken : Prop :=
  (∀ (s : State) (i : StationId) (intervals : List Nat) (stop : Bool),
    ((s.clearRunning = true ∨ s.rstAsserted = true ∨ (s.station i).state = .disabled) →
      exec (.sync i intervals stop) s = .next s)
    ∧ (s.clearRunning = false → s.rstAsserted = false → (s.station i).state ≠ .disabled →
      ((¬ ∃ T : Nat, 2 * intervals.sum < 18 * T + 9 ∧ 18 * T < 2 * intervals.sum + 9
            ∧ 8 ≤ T ∧ T ≤ 99 ∧ intervals.length = 9 ∧ stop = true
            ∧ ∀ n ∈ intervals, 3 * T ≤ 4 * n ∧ 4 * n ≤ 5 * T) →
        exec (.sync i intervals stop) s = .next s)
      ∧ ∀ T : Nat, 2 * intervals.sum < 18 * T + 9 → 18 * T < 2 * intervals.sum + 9 →
          8 ≤ T → T ≤ 99 → intervals.length = 9 → stop = true →
          (∀ n ∈ intervals, 3 * T ≤ 4 * n ∧ 4 * n ≤ 5 * T) →
          (∀ a, (s.station i).link.assembly = some a →
              exec (.sync i intervals stop) s = exec (.sync i intervals stop) (afterIncomplete s i a))
          ∧ ((s.station i).link.assembly = none →
            ∀ u : State, u = (s.updStation i fun x =>
                { x with
                  syncHanded := true
                  link :=
                    { x.link with
                      bitTime := some T, character := .absent, buffer := none, windowOpen := true
                      waiting := none } }) →
              ((s.station i).stall = none → exec (.sync i intervals stop) s = .next u)
              ∧ ((s.station i).stall ≠ none →
                  exec (.sync i intervals stop) s = exec (.syncTaken i) u))))
    ∧ (∀ (s : State) (i : StationId), (s.station i).syncHanded = false → exec (.syncTaken i) s = .next s)
    ∧ ∀ (s : State) (i : StationId), (s.station i).syncHanded = true →
        (s.station i).state ≠ .disabled → (s.station i).restOk →
        ∃ t : State, exec (.syncTaken i) s = .next t ∧ EngineFrame s t i ∧ t.faults = s.faults
          ∧ NoteEnds s t i
          ∧ ((s.station i).state ≠ .live → SamePool s t)
          ∧ t.station i =
              { s.station i with
                state := .synced
                breath := (s.station i).breath.atRest
                fingering := (s.station i).fingering.atRest
                calib := Calibration.fresh
                stall := none
                syncHanded := false
                link := { (s.station i).link with silence := .stopped } }

/-- The reply transmitter (R152, R168): a reply that falls due is sent at once at the bit time in force, or takes the
pending place of one being sent; at the end of a reply the pending one begins at the bit time then in force. The line
carries its four characters back to back, each of eleven bits: a start bit of 0, the data bits from bit 0 on, the mark
bit, 1 for the first character and 0 for the others, and a stop bit of 1; 44 bit times, or those of the characters up
to the one in transmission when the station was disabled (R136). Beyond them, between replies and during the power-on
clear (R140) the line is at 1. With t MCLK periods of a reply gone by at bit time T, the character in transmission is
the (t / 11T)-th, up to the last, and a reply that ends after one character stays with it (R136, R140); the level of
the line is that of its (t / T)-th bit time. That REPLY_END with nothing being sent changes nothing is the model's
(log 2), as is that a reply whose last character is over waits for that row (log 18). -/
def Obligations.RepliesAreSentInTurn : Prop :=
  (∀ (l : Link) (r : Reply),
      (l.sending = none → l.queueReply r = { l with sending := some ⟨r, 0, 0, l.bitTime, false⟩ })
      ∧ (l.sending ≠ none → l.queueReply r = { l with waiting := some r }))
    ∧ (∀ (s : State) (i : StationId),
      ((s.station i).link.sending = none → exec (.replyEnd i) s = .next s)
      ∧ ((s.station i).link.sending ≠ none →
        ((s.station i).link.waiting = none →
          exec (.replyEnd i) s = .next (s.updLink i fun l => { l with sending := none }))
        ∧ ∀ r, (s.station i).link.waiting = some r →
          exec (.replyEnd i) s =
            .next (s.updLink i fun l =>
              { l with sending := some ⟨r, 0, 0, l.bitTime, false⟩, waiting := none })))
    ∧ (∀ (s : State) (i : StationId) (n : Nat),
        (s.clearRunning = true ∨ (s.station i).link.sending = none ∨ (s.ltx i).length ≤ n) →
          s.ltxLevel i n = true)
    ∧ (∀ (x : Sending) (T n : Nat), x.bitTime = some T → 8 ≤ T → T ≤ 99 → x.position < 4 →
        ∃ y : Sending, x.pass n = y ∧ y = { x with position := y.position, elapsed := y.elapsed }
          ∧ y.elapsed ≤ 11 * T
          ∧ (x.cut = true → y.position = x.position ∧ y.elapsed = min (11 * T) (x.elapsed + n))
          ∧ (x.cut = false → ∀ t, t = 11 * T * x.position + x.elapsed + n →
              y.position = min 3 (t / (11 * T))
                ∧ 11 * T * y.position + y.elapsed = min (44 * T) t))
    ∧ (∀ (s : State) (i : StationId), (s.station i).link.sending = none → s.ltxNow i = true)
    ∧ (∀ (s : State) (i : StationId) (x : Sending) (T t : Nat), (s.station i).link.sending = some x →
        x.bitTime = some T → 8 ≤ T → t = 11 * T * x.position + x.elapsed →
          s.ltxNow i = s.ltxLevel i (t / T))
    ∧ ∀ (s : State) (i : StationId) (x : Sending), s.clearRunning = false →
        (s.station i).link.sending = some x →
          ∃ whole : List Bool, whole.length = 44
            ∧ (x.cut = false → s.ltx i = whole)
            ∧ (x.cut = true → s.ltx i = whole.take (11 * (x.position + 1)))
            ∧ ∀ (k : Nat) (c : Byte), [x.reply.start, x.reply.note, x.reply.status, x.reply.check][k]? = some c →
                whole[11 * k]? = some false
                  ∧ (∀ j, j < 8 → whole[11 * k + 1 + j]? = some (c.getLsbD j))
                  ∧ whole[11 * k + 9]? = some (decide (k = 0)) ∧ whole[11 * k + 10]? = some true

/-! ### The station engine -/

/-- HELLO (R126, R130, R150, R151): taken in SYNCED, CALIBRATING, LIVE and LOST by an engine that is free, it stores
class, key count and chart preference after their clamps and starts a fresh calibration, leaving LIVE first, with a
REPLY that shows CALIBRATING and every indicator clear; a note ends by NOTE_OFF. In DISABLED and OFFLINE no HELLO is
recognized; that HELLO with no frame in the buffer, or with the engine not free, changes nothing is the model's
(log 2). -/
def Obligations.HelloStartsCalibration : Prop :=
  (∀ (s : State) (i : StationId),
      ((s.station i).state = .disabled ∨ (s.station i).state = .offline ∨ (s.station i).link.buffer = none
        ∨ (s.station i).engineFree = false) →
      exec (.hello i) s = .next s)
    ∧ ∀ (s : State) (i : StationId) (seq cls count pref : Nat),
        (s.station i).link.buffer = some ⟨seq, .hello cls count pref⟩ →
        (s.station i).engineFree = true →
        (s.station i).state ≠ .disabled → (s.station i).state ≠ .offline → (s.station i).restOk →
        ∃ (t : State) (r : Reply) (c : ChartId), exec (.hello i) s = .next t
          ∧ EngineFrame s t i ∧ t.faults = s.faults ∧ NoteEnds s t i
          ∧ ((s.station i).state ≠ .live → SamePool s t)
          ∧ c.val = (if (s.station i).settings.follow = true ∧ pref < 8 then pref
              else (s.station i).settings.chart.val)
          ∧ (r.start = BitVec.ofNat 8 (0x80 + seq) ∧ r.note = 0xFF ∧ r.status = 3
              ∧ r.start + r.note + r.status + r.check = 0)
          ∧ t.station i =
              { s.station i with
                state := .calibrating
                settings := { (s.station i).settings with chart := c }
                cls := some (min 15 cls)
                keyCount := if count = 0 then 1 else min 32 count
                breath := (s.station i).breath.atRest
                fingering := (s.station i).fingering.atRest
                calib := Calibration.fresh
                link :=
                  { (s.station i).link with
                    buffer := none
                    silence :=
                      if (s.station i).state = StationState.synced ∨ (s.station i).state = StationState.lost then
                        .running 1152
                      else (s.station i).link.silence }.queueReply r }

/-- Frames that are not performed (R131 to R134). A PLAY in CALIBRATING is a sample: gathered, or the one sample of
a calibration that restarts because the spread was exceeded, or the sixteenth, which sets zero and lip centre and
makes the station LIVE; a REPLY is due. A PLAY in SYNCED is dropped with LINK_PROTOCOL. A HUSH ends the note by
NOTE_OFF and clears the breath state in LIVE, keeping the snapshot, and has no effect in SYNCED, CALIBRATING and
LOST. That the bits of a fault detail that R169 does not name are 0 is the model's (log 34). -/
def Obligations.FramesThatAreNotPerformed : Prop :=
  (∀ (s : State) (i : StationId) (seq br lip : Nat) (keys : Word) (b l lo hi : Nat),
      (s.station i).link.buffer = some ⟨seq, .play keys br lip⟩ → (s.station i).engineFree = true →
      (s.station i).state = .calibrating → b = min 4095 br → l = min 4095 lip →
      lo = (match (s.station i).calib.minimum with | some m => min m b | none => b) →
      hi = (match (s.station i).calib.maximum with | some m => max m b | none => b) →
      ∃ (t : State) (x : Station) (r : Reply), exec (.play i) s = .next t
        ∧ EngineFrame s t i ∧ SamePool s t ∧ t.faults = s.faults
        ∧ IsReply r x seq
        ∧ t.station i = { x with link := { x.link with buffer := none }.queueReply r }
        ∧ ((s.station i).settings.spread < hi - lo →
            x = { s.station i with
              calib := ⟨1, b, l, some b, some b⟩
              restarts := min 65535 ((s.station i).restarts + 1) })
        ∧ (hi - lo ≤ (s.station i).settings.spread → (s.station i).calib.count + 1 ≠ 16 →
            x = { s.station i with
              calib :=
                ⟨(s.station i).calib.count + 1, (s.station i).calib.breathSum + b,
                  (s.station i).calib.lipSum + l, some lo, some hi⟩ })
        ∧ (hi - lo ≤ (s.station i).settings.spread → (s.station i).calib.count + 1 = 16 →
            x = { s.station i with
              state := .live
              calib := Calibration.fresh
              breath := { (s.station i).breath with
                zero := ((s.station i).calib.breathSum + b) / 16
                lipCentre := ((s.station i).calib.lipSum + l) / 16
                borrowRun := 0 } }))
    ∧ (∀ (s : State) (i : StationId) (seq br lip : Nat) (keys : Word),
        (s.station i).link.buffer = some ⟨seq, .play keys br lip⟩ → (s.station i).engineFree = true →
        (s.station i).state = .synced →
        exec (.play i) s =
          .next (afterProtocolFault (s.updLink i fun l => { l with buffer := none }) i
            ((BitVec.ofNat 8 (0x20 + seq)).toNat + 4 * 4096)))
    ∧ ∀ (s : State) (i : StationId) (seq : Nat),
        (s.station i).link.buffer = some ⟨seq, .hush⟩ → (s.station i).engineFree = true →
        ((s.station i).state = .synced ∨ (s.station i).state = .calibrating
            ∨ (s.station i).state = .lost →
          exec (.hush i) s = .next (s.updLink i fun l => { l with buffer := none }))
        ∧ ((s.station i).state = .live →
          ∃ t : State, exec (.hush i) s = .next t ∧ EngineFrame s t i ∧ t.faults = s.faults
            ∧ NoteEnds s t i ∧ (s.note i = none → SamePool s t)
            ∧ t.station i =
                { s.station i with
                  breath := (s.station i).breath.atRest
                  fingering := { (s.station i).fingering with
                    note := none, onsetPending := false, settle := .stopped, changed := 0 }
                  link := { (s.station i).link with buffer := none } })

/-- A PLAY performed, in LIVE or on the way from LOST to LIVE (R6, R39, R46 to R49, R53 to R55, R58, R133, R150,
R151). The breath computation is published, but for RAISED; the snapshot and the changed keys are taken; a fall of
GATE ends the note by NOTE_OFF and clears onset pending; a covered edge restarts the settle timer, or stops it at a
settle time of 0; an onset becomes pending. Then a resolution is made exactly where the frame calls for one, the
conditions are evaluated and the REPLY falls due; but where the chart has an edit in flight the station stalls in
place of the resolution and all that follows it. A settle timer that has expired and whose expiry is not yet taken
is read as a pending window: a frame taken first then calls for no resolution on account of uncovered changes, as
R50 has it of a frame taken before the expiry, nor on account of EXCESS (R53), for which no rule says so. The
reading is the model's (log 17), as is that the changed keys stay recorded while that resolution is held, the timer
stopped or not (log 36). -/
def Obligations.PlayIsPerformed : Prop :=
  ∀ (s : State) (i : StationId) (seq br lip : Nat) (keys now : Word) (b : Breath),
    (s.station i).link.buffer = some ⟨seq, .play keys br lip⟩ → (s.station i).engineFree = true →
    ((s.station i).state = .live ∨ (s.station i).state = .lost) →
    b = breathStep (s.station i).settings (s.station i).breath (min 4095 br) (min 4095 lip) →
    SnapshotOf (s.station i).keyCount keys now →
    ∃ t : State, exec (.play i) s = .next t ∧ EngineFrame s t i
      ∧ ((t.station i).state = .live ∧ (t.station i).settings = (s.station i).settings
        ∧ (t.station i).keySense = (s.station i).keySense ∧ (t.station i).cls = (s.station i).cls
        ∧ (t.station i).keyCount = (s.station i).keyCount
        ∧ (t.station i).calib = (s.station i).calib
        ∧ (t.station i).restarts = (s.station i).restarts)
      ∧ (∃ raised : Bool, (t.station i).breath = { b with ind := { b.ind with raised := raised } })
      ∧ (t.station i).fingering.snapshot = now
      ∧ ((BringsCovered (s.station i) now → (t.station i).fingering.settle =
            (if (s.station i).settings.settle = 0 then .stopped
              else .running (12 * (s.station i).settings.settle)))
        ∧ (¬ BringsCovered (s.station i) now →
            (t.station i).fingering.settle = (s.station i).fingering.settle))
      ∧ ((s.station i).breath.ind.gate = true → b.ind.gate = false →
          t.note i = none ∧ (t.station i).fingering.onsetPending = false)
      ∧ (¬ CallsForResolution (s.station i) b now →
          (t.station i).fingering.changed =
              (s.station i).fingering.changed ||| ((s.station i).fingering.snapshot ^^^ now)
            ∧ (t.station i).fingering.current = (s.station i).fingering.current
            ∧ (t.station i).fingering.misses = (s.station i).fingering.misses
            ∧ (t.station i).breath.ind.raised = (s.station i).breath.ind.raised
            ∧ t.tagCounter = s.tagCounter)
      ∧ (CallsForResolution (s.station i) b now → s.charts.busy (s.station i).settings.chart = false →
          (t.station i).fingering.changed = 0)
      ∧ (∃ u : State, FrameBegun s u i now b
          ∧ (CallsForResolution (s.station i) b now → s.charts.busy (s.station i).settings.chart = true →
              t = u.updStation i fun x => { x with stall := some (.frame seq) })
          ∧ (CallsForResolution (s.station i) b now → s.charts.busy (s.station i).settings.chart = false →
              EndsWithReply (evalConditions (resolution u i) i) t i seq)
          ∧ (¬ CallsForResolution (s.station i) b now → EndsWithReply (evalConditions u i) t i seq))
      ∧ (CallsForResolution (s.station i) b now → s.charts.busy (s.station i).settings.chart = true →
          (t.station i).stall = some (.frame seq)
            ∧ (t.station i).link.sending = (s.station i).link.sending
            ∧ (t.station i).link.waiting = (s.station i).link.waiting)
      ∧ (¬ CallsForResolution (s.station i) b now
          ∨ s.charts.busy (s.station i).settings.chart = false →
          (t.station i).stall = none
            ∧ ∃ r : Reply, IsReply r (t.station i) seq
              ∧ (t.station i).link =
                { (s.station i).link with
                  buffer := none
                  silence :=
                    if (s.station i).state = StationState.lost then .running 1152
                    else (s.station i).link.silence }.queueReply r)

/-- A resolution (R51, R52, R55 to R57). A miss takes CHART_MISS, counts and keeps the note. A match gives the note
number and RAISED of the entry with its register raises: with no note it starts one by NOTE_ON where an onset is
pending; the same number keeps the note; another number retunes it in LEGATO, its tag kept, and evaluates the
conditions; in RETRIGGER it ends the note by NOTE_OFF and starts another by NOTE_ON. -/
def Obligations.ResolutionSettlesTheNote : Prop :=
  ∀ (s t : State) (i : StationId) (g : Fingering), t = resolution s i → g = (s.station i).fingering →
    EngineFrame s t i
      ∧ (lookup s.charts.lists[(s.station i).settings.chart] g.snapshot = none →
          SamePool s t
            ∧ t.faults = s.faults.take
                ⟨.chartMiss, some i, none, g.note.map NoteRecord.tag, g.snapshot, s.timebase⟩
            ∧ t.station i =
                { s.station i with
                  fingering := { g with misses := min 255 (g.misses + 1), current := none, changed := 0 }
                  breath := { (s.station i).breath with
                    ind := { (s.station i).breath.ind with
                      raised := (match g.note with | some n => n.raised | none => false) } } })
      ∧ ∀ (e : CurrentEntry) (byKey byBreath raised : Bool) (number : Nat),
          lookup s.charts.lists[(s.station i).settings.chart] g.snapshot = some e →
          byKey = (match e.regKey with | some k => g.snapshot.getLsbD k.val | none => false) →
          byBreath = (e.breathReg && (s.station i).breath.ind.excess) →
          raised = ((byKey || byBreath) && decide (0 < e.step)) →
          number = min 127 (e.note + (if byKey then e.step else 0) + (if byBreath then e.step else 0)) →
            ((t.station i).fingering.current = some e ∧ (t.station i).fingering.changed = 0
              ∧ (t.station i).fingering.snapshot = g.snapshot
              ∧ (t.station i).fingering.settle = g.settle
              ∧ (t.station i).fingering.misses = g.misses
              ∧ (t.station i).breath =
                  { (s.station i).breath with
                    ind := { (s.station i).breath.ind with raised := raised } })
            ∧ (∀ u : State,
                u = (s.updStation i fun x =>
                  { x with
                    fingering := { x.fingering with current := some e, changed := 0 }
                    breath := { x.breath with ind := { x.breath.ind with raised := raised } } }) →
                (g.note = none → g.onsetPending = false → t = u)
                ∧ (g.note = none → g.onsetPending = true → t = noteOn u i number raised)
                ∧ ∀ n, g.note = some n →
                  (n.number = number → t = u.updNote i fun m => { m with raised := raised })
                  ∧ (n.number ≠ number → (s.station i).settings.mode = .legato →
                    t = evalConditions
                      (retune (u.updNote i fun m => { m with number := number, raised := raised }) i) i)
                  ∧ (n.number ≠ number → (s.station i).settings.mode = .retrigger →
                    t = noteOn (noteOff u i) i number raised))
            ∧ (g.note = none → g.onsetPending = false →
                t.note i = none ∧ SamePool s t ∧ t.faults = s.faults)
            ∧ (g.note = none → g.onsetPending = true →
                (t.station i).fingering.onsetPending = false
                  ∧ ∃ n, t.note i = some n ∧ n.number = number ∧ n.raised = raised
                    ∧ n.tag = freeTag s 255 s.tagCounter
                    ∧ n.slots.length = min 3 s.templates[(s.station i).settings.template].length
                    ∧ (s.templates[(s.station i).settings.template] ≠ [] →
                        n.template = some (s.station i).settings.template))
            ∧ ∀ n, g.note = some n →
                (n.number = number →
                  t.note i = some { n with raised := raised } ∧ SamePool s t ∧ t.faults = s.faults)
                ∧ (n.number ≠ number → (s.station i).settings.mode = .legato →
                  ∃ m, t.note i = some m ∧ m.tag = n.tag ∧ m.template = n.template
                    ∧ m.number = number ∧ m.raised = raised ∧ t.tagCounter = s.tagCounter)
                ∧ (n.number ≠ number → (s.station i).settings.mode = .retrigger →
                  (t.station i).fingering.onsetPending = false
                    ∧ ∃ m, t.note i = some m ∧ m.number = number ∧ m.raised = raised
                      ∧ t.tagCounter = (if 255 ≤ m.tag then 1 else m.tag + 1))

/-- The expiries the engine takes (R39, R50, R135, R150). Of the settle timer, in LIVE: a resolution, or a stall
while the chart has an edit in flight; no REPLY. Of the silence timer: LIVE becomes LOST and CALIBRATING becomes
SYNCED, with LINK_SILENT carrying the sounding note's tag and the state left, the note ended by NOTE_OFF. That the
rows change nothing where there is no expiry is the model's (log 2). That the bits of a fault detail that R169 does
not name are 0 is the model's (log 34). -/
def Obligations.TimerExpiriesAreTaken : Prop :=
  (∀ (s : State) (i : StationId), (s.station i).fingering.settle ≠ .expired →
      exec (.settleExpiry i) s = .next s)
    ∧ (∀ (s : State) (i : StationId), (s.station i).link.silence ≠ .expired →
      exec (.silenceTimeout i) s = .next s)
    ∧ (∀ (s : State) (i : StationId), (s.station i).state = .live →
        (s.station i).fingering.settle = .expired → (s.station i).engineFree = true →
        (s.charts.busy (s.station i).settings.chart = true →
          exec (.settleExpiry i) s =
            .next (s.updStation i fun x =>
              { x with fingering := { x.fingering with settle := .stopped }, stall := some .expiry }))
        ∧ (s.charts.busy (s.station i).settings.chart = false →
          exec (.settleExpiry i) s =
            .next (evalConditions
              (resolution (s.updFingering i fun g => { g with settle := .stopped }) i) i)))
    ∧ (∀ (s : State) (i : StationId), (s.station i).state = .live →
        (s.station i).link.silence = .expired → (s.station i).syncHanded = false →
        ∃ t : State, exec (.silenceTimeout i) s = .next t ∧ EngineFrame s t i ∧ NoteEnds s t i
          ∧ t.faults = s.faults.take
              ⟨.linkSilent, some i, none, (s.note i).map NoteRecord.tag, 4, s.timebase⟩
          ∧ t.station i =
              { s.station i with
                state := .lost
                breath := (s.station i).breath.atRest
                fingering := (s.station i).fingering.atRest
                stall := none
                link := { (s.station i).link with silence := .stopped } })
    ∧ ∀ (s : State) (i : StationId), (s.station i).state = .calibrating →
        (s.station i).link.silence = .expired → (s.station i).syncHanded = false →
        exec (.silenceTimeout i) s =
          .next { s.updStation i fun x =>
              { x with
                state := .synced
                calib := Calibration.fresh
                link := { x.link with silence := .stopped } } with
            faults := s.faults.take ⟨.linkSilent, some i, none, none, 3, s.timebase⟩ }

/-! ### Breath arithmetic -/

/-- The curve value and the lip deflection (R12, R13, R17). -/
def Obligations.CurveAndDeflection : Prop :=
  (∀ f : Nat, curveValue .root f * curveValue .root f ≤ f
      ∧ f < (curveValue .root f + 1) * (curveValue .root f + 1)
      ∧ (f ≤ 1044225 → curveValue .root f ≤ 1021))
    ∧ (∀ f : Nat, curveValue .linear f = f / 1024 ∧ (f ≤ 1044225 → curveValue .linear f ≤ 1019))
    ∧ (∀ g : Nat, g ≤ 4095 → curveValue .linear (g * 255) < 1020)
    ∧ ∀ (centre w lip : Nat) (d : Int), centre ≤ 4095 → lip ≤ 4095 →
        d = (lip : Int) - (centre : Int) →
        (-4095 ≤ d ∧ d ≤ 4095)
          ∧ (d.natAbs ≤ w → deflection centre w lip = 0)
          ∧ ((w : Int) < d → deflection centre w lip = d - w)
          ∧ (d < -(w : Int) → deflection centre w lip = d + w)
          ∧ (0 < deflection centre w lip → 0 < d) ∧ (deflection centre w lip < 0 → d < 0)

/-- One breath computation (R8 to R11, R14, R15, R18 to R20), from the station's settings, what its breath unit holds
and the clamped readings b and lip: pressure, gate, level under the ceiling, overblow with its history, bend, borrow
run and zero follow. RAISED and the lip centre stay. -/
def Obligations.BreathComputation : Prop :=
  ∀ (c : Settings) (x y : Breath) (b lip p q : Nat) (d : Int),
    y = breathStep c x b lip → p = b - x.zero →
    q = curveValue c.curve (if p ≤ c.threshold then 0 else (p - c.threshold) * c.gain) →
    d = deflection x.lipCentre c.deadZone lip * (c.bendGain : Int) / 256 →
      y.level = min q c.ceiling
      ∧ y.bend = max (-(c.bendRange : Int)) (min (c.bendRange : Int) d)
      ∧ y.ind =
          { gate := decide (c.threshold < p)
            borrow := decide (b < x.zero)
            excess :=
              if c.overblow = 0 ∨ p ≤ c.threshold then false
              else if c.overblow ≤ min q c.ceiling then true
              else if ((min q c.ceiling : Nat) : Int) < (c.overblow : Int) - (c.hysteresis : Int) then false
              else x.history
            clip := decide (c.ceiling < q)
            bend := decide (y.bend ≠ 0)
            raised := x.ind.raised }
      ∧ y.history = y.ind.excess
      ∧ y.lipCentre = x.lipCentre
      ∧ y.borrowRun = (if b < x.zero ∧ x.borrowRun + 1 ≠ 256 then x.borrowRun + 1 else 0)
      ∧ y.zero = (if b < x.zero ∧ x.borrowRun + 1 = 256 then b else x.zero)

/-! ### Rendering and the audio port -/

/-- One sample period (R1, R48, R113, R118 to R120, R150). The timebase rises by 1, running timers fall by 1 and
expire at 0, and the rest of the frame goes by for every reply being sent; every voice is then stepped once, the
stations' sums beginning at 0; each station's output is formed of its sums and its clip state follows; the TDM frame
carries the outputs of the period before (zeros while RST_N is asserted and during the power-on clear), its position
begins again at the first bit of slot 0, which the frame-sync pulse marks, and TDATA gives each slot most
significant bit first. Every output lies within its limits, and a DISABLED station's are 0. Stores, tags, policy,
port and queue stay, and of a station only its timers, the place in its reply and its slots' states change. The
model's are: that the period's rest is that of the frame's position (log 3), that the timebase rises while RST_N is
asserted (log 9), that an expired timer stands as expired (log 17), that the clocks advance before the voices (log
11), and that the row carries the order of voices and of clip reports (log 12). -/
def Obligations.SamplePeriodAdvancesTheClocks : Prop :=
  ∀ (s : State) (voices : List VoiceId) (stations : List StationId),
    ∃ t : State, exec (.samplePeriod voices stations) s = .next t
      ∧ t.timebase = s.timebase + 1
      ∧ SameStores s t ∧ t.tagCounter = s.tagCounter
      ∧ (t.pending = s.pending ∧ t.clearRunning = s.clearRunning ∧ t.rstAsserted = s.rstAsserted
        ∧ t.port = s.port ∧ t.draws = s.draws)
      ∧ (t.faults.enable = s.faults.enable ∧ t.faults.mask = s.faults.mask)
      ∧ (∃ (u : State) (r : State × Sums) (vs : List VoiceId) (is : List StationId),
          (u = { s with timebase := s.timebase + 1, stations := u.stations }
            ∧ ∀ i : StationId, Ticked (2 * (256 - s.audio.position)) (s.station i) (u.station i))
          ∧ (vs.Nodup ∧ (∀ v, v ∈ vs) ∧ (voices.Nodup → voices <+: vs))
          ∧ (is.Nodup ∧ (∀ i, i ∈ is) ∧ (stations.Nodup → stations <+: is))
          ∧ r = vs.foldl stepVoice (u, Vector.replicate 4 ⟨0, 0⟩)
          ∧ t = is.foldl (clipStation r.2)
              { r.1 with
                audio :=
                  { clip := s.audio.clip
                    outputs := Vector.ofFn fun i => stationOutput r.1 i r.2[i]
                    frame := t.audio.frame
                    position := 0 } }
          ∧ (∀ i : StationId, t.audio.outputs[i] = stationOutput r.1 i r.2[i])
          ∧ ∀ i : StationId, SameStation u t i)
      ∧ (∀ i : StationId,
          (-8388607 ≤ t.audio.outputs[i].left ∧ t.audio.outputs[i].left ≤ 8388607)
            ∧ (-8388607 ≤ t.audio.outputs[i].right ∧ t.audio.outputs[i].right ≤ 8388607)
            ∧ ((s.station i).state = .disabled →
                t.audio.outputs[i] = ⟨0, 0⟩ ∧ t.audio.clip[i] = false))
      ∧ ((s.rstAsserted = true ∨ s.clearRunning = true) → t.audio.frame = Vector.replicate 8 0)
      ∧ (s.rstAsserted = false → s.clearRunning = false → ∀ i : StationId,
          t.audio.frame[2 * i.val] = BitVec.ofInt 24 s.audio.outputs[i].left ++ (0 : BitVec 8)
            ∧ t.audio.frame[2 * i.val + 1] = BitVec.ofInt 24 s.audio.outputs[i].right ++ (0 : BitVec 8))
      ∧ (t.audio.position = 0 ∧ ∀ u : State, u.frameSync = true ↔ u.audio.position = 0)
      ∧ (∀ u : State, u.tdata = tdataBit u.audio.frame u.audio.position)
      ∧ ∀ (frame : Vector Word 8) (slot : Fin 8) (k : Nat), k < 32 →
          tdataBit frame (32 * slot.val + k) = frame[slot].getLsbD (31 - k)

/-- Station outputs and clips (R118, R119): a channel's output is its sum × gain / 16, limited to ±8,388,607, and
saturated where the limit changed it; the first saturated period of a run takes AUDIO_CLIP with the channels as
detail; the clip state records the period. A DISABLED station outputs 0 and is never saturated. That the bits of a
fault detail that R169 does not name are 0 is the model's (log 34). -/
def Obligations.OutputsAreLimitedAndClipped : Prop :=
  ∀ (s : State) (sums : Sums) (i : StationId),
    ((s.station i).state = .disabled →
      stationOutput s i sums[i] = ⟨0, 0⟩
        ∧ clipStation sums s i = { s with audio := { s.audio with clip := s.audio.clip.set i false } })
    ∧ ∀ (l r : Int) (satL satR : Bool), (s.station i).state ≠ .disabled →
        l = sums[i].left * ((s.station i).settings.outGain : Int) / 16 →
        r = sums[i].right * ((s.station i).settings.outGain : Int) / 16 →
        satL = decide (l < -8388607 ∨ 8388607 < l) → satR = decide (r < -8388607 ∨ 8388607 < r) →
          stationOutput s i sums[i] =
              ⟨max (-8388607) (min 8388607 l), max (-8388607) (min 8388607 r)⟩
            ∧ (clipStation sums s i).audio = { s.audio with clip := s.audio.clip.set i (satL || satR) }
            ∧ (((satL || satR) = true → s.audio.clip[i] = false →
                  (clipStation sums s i).faults =
                    s.faults.take ⟨.audioClip, some i, none, none,
                      BitVec.ofNat 32 ((if satL then 1 else 0) + if satR then 2 else 0), s.timebase⟩)
              ∧ ((satL || satR) = false ∨ s.audio.clip[i] = true →
                  (clipStation sums s i).faults = s.faults))

/-- The step of one voice whose reads have good parity (R111 to R116, R118): its glide advances, its effective pitch
is formed from base pitch and bend, the wave value is blended by the level, scaled by the amplitude and divided by
pan into its output station's sums, the phase advances, the amplitude moves one step toward its target and a fade at
0 is reported. A FREE or FAULTED voice is not stepped. -/
def Obligations.VoicesAreStepped : Prop :=
  (∀ (s : State) (sums : Sums) (v : VoiceId),
      (s.voice v).state = .free ∨ (s.voice v).state = .faulted → stepVoice (s, sums) v = (s, sums))
    ∧ ∀ (s : State) (sums : Sums) (v : VoiceId) (i : StationId) (x : Voice) (c : LayerCopy)
        (addrA level target step : Nat) (w : Int),
      x = s.voice v → x.copy = some c → x.outStation = some i →
      (x.state = .sounding ∨ x.state = .releasing ∨ x.state = .draining) →
      addrA = c.waveA.region.start + x.phase.toNat / 2 ^ (32 - c.waveA.region.k) →
      s.memory.parityFailed addrA = false →
      level = (s.station i).breath.level →
      (match c.waveB with
        | none => w = (s.memory.sampleBits addrA).toInt
        | some b => ∃ addrB, addrB = b.region.start + x.phase.toNat / 2 ^ (32 - b.region.k)
            ∧ s.memory.parityFailed addrB = false
            ∧ w = ((s.memory.sampleBits addrA).toInt * (1024 - (level : Int))
                + (s.memory.sampleBits addrB).toInt * (level : Int)) / 1024) →
      target = (if x.state = .sounding then level * c.tone.level / 255 * 64 else 0) →
      step = (match x.state with
        | .sounding => c.tone.attack
        | .releasing => c.tone.release
        | _ => 1024) →
      ∃ y z : Voice, PitchFormed s x z i
          ∧ stepVoice (s, sums) v =
            (s.updVoice v fun _ => y,
              sums.set i
                ⟨sums[i].left + w * (x.amp : Int) / 65536 * (128 - (c.tone.pan : Int)) / 128,
                  sums[i].right + w * (x.amp : Int) / 65536 * (c.tone.pan : Int) / 128⟩)
          ∧ y.phase = x.phase + z.inc
          ∧ y.ampTarget = target
          ∧ y.amp = (if x.amp < target then min target (x.amp + step) else max target (x.amp - step))
          ∧ (y.completionDue = true ↔ x.completionDue = true ∨ (x.state ≠ .sounding ∧ y.amp = 0))
          ∧ y = { z with
              phase := y.phase, ampTarget := y.ampTarget, amp := y.amp
              completionDue := y.completionDue }

/-- A read whose parity fails, wave A named before wave B (R103, R104, R117, R155). With WAVE_PARITY enabled the
fault is taken with voice, output station, tag, wave and address, and the voice becomes FAULTED in that step with
its copy, amplitude and phase as they were, bound to no claim, adding nothing and keeping the owner it had or the
claim's. With the kind disabled no fault is taken; the voice is an orphan from then on and this step goes on at the
drain step, the failed sample read as 0. In both cases the slot that lost its voice or its claim claims again at
once, and nothing more happens to a RELEASING voice or an orphan. That the voice keeps the pitch this step has
formed is the model's (log 25), as is that a voice that was DRAINING keeps a completion reported before (log 13).
That the bits of a fault detail that R169 does not name are 0 is the model's (log 34). -/
def Obligations.ParityErrorsHoldTheVoice : Prop :=
  ∀ (s : State) (sums : Sums) (v : VoiceId) (i : StationId) (x : Voice) (c : LayerCopy)
      (addrA level : Nat) (a w : Int) (wave : WaveId) (addr : Nat) (losing kept : Option Owner),
    PoolOk s → x = s.voice v → x.copy = some c → x.outStation = some i →
    (x.state = .sounding ∨ x.state = .releasing ∨ x.state = .draining) →
    addrA = c.waveA.region.start + x.phase.toNat / 2 ^ (32 - c.waveA.region.k) →
    level = (s.station i).breath.level →
    a = (if s.memory.parityFailed addrA then 0 else (s.memory.sampleBits addrA).toInt) →
    (match c.waveB with
      | none => w = a ∧ wave = c.waveA.wave ∧ addr = addrA ∧ s.memory.parityFailed addrA = true
      | some b => ∃ addrB bb, addrB = b.region.start + x.phase.toNat / 2 ^ (32 - b.region.k)
          ∧ bb = (if s.memory.parityFailed addrB then 0 else (s.memory.sampleBits addrB).toInt)
          ∧ w = (a * (1024 - (level : Int)) + bb * (level : Int)) / 1024
          ∧ ((s.memory.parityFailed addrA = true ∧ wave = c.waveA.wave ∧ addr = addrA)
            ∨ (s.memory.parityFailed addrA = false ∧ s.memory.parityFailed addrB = true
                ∧ wave = b.wave ∧ addr = addrB))) →
    losing = (match x.state with
      | .sounding => x.owner
      | .draining => (claimOf s v).map fun k => ⟨k.station, k.tag, k.layer⟩
      | _ => none) →
    kept = (match x.state with
      | .draining => (claimOf s v).map fun k => ⟨k.station, k.tag, k.layer⟩
      | _ => x.owner) →
      (s.faults.enable.getLsbD 6 = true →
        ∃ (t u : State) (z : Voice), stepVoice (s, sums) v = (t, sums) ∧ PitchFormed s x z i
          ∧ u = { s.updVoice v (fun _ =>
                { z with state := .faulted, owner := kept, completionDue := false }) with
              claims := s.claims.filter fun k => k.voice ≠ v
              faults := s.faults.take
                ⟨.waveParity, some i, some v, kept.map Owner.tag,
                  BitVec.ofNat 32 (addr + wave.val * 65536), s.timebase⟩ }
          ∧ t = (match losing with
            | some o => claimVoice u o.station o.tag o.layer
            | none => u)
          ∧ (t.voice v).state = .faulted ∧ (t.voice v).copy = some c
          ∧ (t.voice v).amp = x.amp ∧ (t.voice v).phase = x.phase
          ∧ (t.voice v).owner = kept ∧ claimOf t v = none)
      ∧ (s.faults.enable.getLsbD 6 = false →
        ∃ (t u : State) (y z : Voice), PitchFormed s x z i
          ∧ stepVoice (s, sums) v =
            (t.updVoice v fun _ => y,
              sums.set i
                ⟨sums[i].left + w * (x.amp : Int) / 65536 * (128 - (c.tone.pan : Int)) / 128,
                  sums[i].right + w * (x.amp : Int) / 65536 * (c.tone.pan : Int) / 128⟩)
          ∧ u = { s.updVoice v (fun _ =>
                { z with
                  state := .draining, owner := none, target := z.base, glide := .stopped
                  completionDue := x.state == .draining && x.completionDue }) with
              claims := s.claims.filter fun k => k.voice ≠ v }
          ∧ t = (match losing with
            | some o => claimVoice u o.station o.tag o.layer
            | none => u)
          ∧ (y.completionDue = true ↔ (x.state = .draining ∧ x.completionDue = true) ∨ y.amp = 0)
          ∧ y = { z with
              state := .draining, owner := none, target := z.base, glide := .stopped
              phase := x.phase + z.inc, ampTarget := 0, amp := x.amp - 1024
              completionDue := y.completionDue }
          ∧ claimOf t v = none)

/-- Retunes and glide (R100, R110, R111). A retune gives the voice of each VOICED slot of the note, and no other,
the pitch of the note's number as its target at the station's glide rate, and changes nothing else. A target is
taken at once at a rate of 0, else a countdown of 48 sample periods is started where none runs; a target equal to
the base stops it. At the countdown's end the base moves by the rate toward the target, and takes it where the
distance left is not more than the rate or the rate has become 0. The model's are: that the step can be taken ahead
of the rest of the voice's step (log 14), that GLIDE_STEP otherwise changes nothing (log 2), and that a retune at
rate 0 stops a running countdown (log 24). -/
def Obligations.GlideMovesTheBase : Prop :=
  (∀ (s : State) (i : StationId), (s.note i = none → retune s i = s)
      ∧ ∀ n, s.note i = some n →
        retune s i = { s with voices := (retune s i).voices }
        ∧ (∀ v, (∀ x ∈ n.slots, x.state ≠ .voiced v) → (retune s i).voice v = s.voice v)
        ∧ ∀ (before after : List Slot) (x : Slot) (v : VoiceId) (p : Nat),
            n.slots = before ++ x :: after → x.state = .voiced v →
            (∀ y ∈ before ++ after, y.state ≠ .voiced v) →
            (p : Int) = max 0 (min 8191 ((n.number : Int) * 64 + x.copy.tone.transpose * 64
              + x.copy.tone.fine + (s.station i).settings.transpose * 64)) →
            (retune s i).voice v = (s.voice v).retarget p (s.station i).settings.glide)
    ∧ (∀ (x : Voice) (p rate : Nat),
      (p = x.base → x.retarget p rate = { x with target := p, glide := .stopped })
      ∧ (p ≠ x.base → rate = 0 →
          x.retarget p rate = { x with base := p, target := p, glide := .stopped })
      ∧ (p ≠ x.base → rate ≠ 0 → x.retarget p rate =
          { x with target := p, glide := if x.glide = .stopped then .running 48 else x.glide }))
    ∧ (∀ (s : State) (v : VoiceId),
        (s.voice v).state ≠ .sounding ∨ (s.voice v).glide ≠ .running 1 →
        exec (.glideStep v) s = .next s)
    ∧ ∀ (s : State) (v : VoiceId) (i : StationId) (x : Voice) (rate : Nat),
        x = s.voice v → x.state = .sounding → x.outStation = some i →
        rate = (s.station i).settings.glide →
        (x.glide = .stopped → advanceGlide s x = x)
        ∧ (∀ n, 2 ≤ n → x.glide = .running n → advanceGlide s x = { x with glide := .running (n - 1) })
        ∧ (∀ n, x.glide = .advanced n → advanceGlide s x = { x with glide := .running n })
        ∧ (x.glide = .running 1 →
          ((rate = 0 ∨ (x.target : Int) - x.base ≤ rate ∧ (x.base : Int) - x.target ≤ rate) →
            advanceGlide s x = { x with base := x.target, glide := .stopped }
              ∧ exec (.glideStep v) s =
                  .next (s.updVoice v fun _ => { x with base := x.target, glide := .stopped }))
          ∧ (rate ≠ 0 → x.base + rate < x.target →
            advanceGlide s x = { x with base := x.base + rate, glide := .running 48 }
              ∧ exec (.glideStep v) s =
                  .next (s.updVoice v fun _ => { x with base := x.base + rate, glide := .advanced 48 }))
          ∧ (rate ≠ 0 → x.target + rate < x.base →
            advanceGlide s x = { x with base := x.base - rate, glide := .running 48 }
              ∧ exec (.glideStep v) s =
                  .next (s.updVoice v fun _ => { x with base := x.base - rate, glide := .advanced 48 })))

/-! ### The fault capture -/

/-- The fault capture (R156 to R158, R160). A report of a disabled kind changes nothing; one of an enabled kind
counts, modulo 65,536, and fills an empty record, stamped with the timebase, or else sets its kind's flag; nothing
but the capture changes. ALERT_N is asserted while the record's kind or the kind of a set flag is unmasked.
FAULT_CLEAR with the fault count empties record and flags and releases ALERT_N, with any other value it is answered
STALE and changes nothing. FAULT_POLICY replaces both sets, positions 0 and 11 to 15 dropped with ADJUSTED. -/
def Obligations.FaultsAreTakenAndCleared : Prop :=
  (∀ (s : State) (k : FaultKind) (st : Option StationId) (vo : Option VoiceId) (tag : Option Nat)
      (detail : Word),
      (s.faults.enable.getLsbD k.number = false → report s k st vo tag detail = s)
      ∧ (s.faults.enable.getLsbD k.number = true → s.faults.first = none →
          report s k st vo tag detail =
            { s with
              faults := { s.faults with
                count := s.faults.count + 1
                first := some
                  { kind := k, station := st, voice := vo, tag := tag, detail := detail,
                    time := s.timebase } } })
      ∧ ∀ f, s.faults.enable.getLsbD k.number = true → s.faults.first = some f →
          ∃ flags : Half,
            report s k st vo tag detail =
                { s with faults := { s.faults with count := s.faults.count + 1, flags := flags } }
              ∧ ∀ n, flags.getLsbD n = (s.faults.flags.getLsbD n || decide (n = k.number)))
    ∧ (∀ f : FaultCapture, f.alert = true ↔
        (∃ r, f.first = some r ∧ f.mask.getLsbD r.kind.number = false)
          ∨ ∃ n, n < 16 ∧ f.flags.getLsbD n = true ∧ f.mask.getLsbD n = false)
    ∧ (∀ (s : State) (n : Half), portTakes s (.faultClear n) = true →
      (n = s.faults.count →
        ∃ f : FaultCapture,
          exec (.faultClear n) s = .next (State.answered { s with faults := f } .ok [])
            ∧ f = { s.faults with first := none, flags := 0 } ∧ f.alert = false)
      ∧ (n ≠ s.faults.count → exec (.faultClear n) s = .next (s.answered .stale [])))
    ∧ ∀ (s : State) (enable mask : Half), portTakes s (.faultPolicy enable mask) = true →
        ∃ (e m : Half) (code : ResultCode),
          exec (.faultPolicy enable mask) s =
              .next (State.answered { s with faults := { s.faults with enable := e, mask := m } } code [])
            ∧ (∀ n, 1 ≤ n → n ≤ 10 → e.getLsbD n = enable.getLsbD n ∧ m.getLsbD n = mask.getLsbD n)
            ∧ (∀ n, n = 0 ∨ 11 ≤ n → e.getLsbD n = false ∧ m.getLsbD n = false)
            ∧ ((∃ n, (n = 0 ∨ 11 ≤ n)
                ∧ (enable.getLsbD n = true ∨ mask.getLsbD n = true)) → code = .adjusted)
            ∧ ((∀ n, n = 0 ∨ 11 ≤ n →
                enable.getLsbD n = false ∧ mask.getLsbD n = false) → code = .ok)

/-! ### What every step keeps -/

/-- Every step keeps the wave memory's canonical form, which is the model's own layout (log 7): cells in rising order,
within the memory, none of them 0. -/
def Obligations.StepsKeepTheMemoryCanonical : Prop :=
  ∀ s t : State, MemoryOk s → step s = .next t → MemoryOk t

/-- Every step keeps the chart store's counts: lengths and free cells make 512, no chart has more than 128 entries,
an edit's work count is 1 to 128 (R25, R31, R37). -/
def Obligations.StepsKeepTheChartCounts : Prop :=
  ∀ s t : State, s.charts.ok → step s = .next t → t.charts.ok

/-- Every step keeps the free list exactly the FREE voices, each once, and the claim table's voices distinct and
DRAINING (R81, R90); and in such a pool it keeps the entries of claim table and starve list with the slots they
name: every entry of the claim table names a distinct CLAIMING slot of a current note, every entry of the starve
list a distinct STARVED one, each such slot has exactly one entry, and the SOUNDING voices are those of the VOICED
slots (R62, R80, R90, R93). Claim table and starve list then hold at most 12 entries together (R93). -/
def Obligations.StepsKeepThePoolsLists : Prop :=
  (∀ s t : State, PoolOk s → step s = .next t → PoolOk t)
    ∧ (∀ s t : State, PoolOk s → SlotsListed s → step s = .next t → SlotsListed t)
    ∧ ∀ s : State, SlotsListed s → s.claims.length + s.starve.length ≤ 12

/-- A station's count is the number of the SOUNDING and RELEASING voices it owns and of the DRAINING voices bound to
its claims (R82). Every step keeps each station's count within its cap, and the reserves together within 32 and each
within its cap (R82, R83), in a pool whose lists are sound. -/
def Obligations.StepsKeepTheCaps : Prop :=
  (∀ s : State, PoolOk s →
      (∀ v c, claimOf s v = some c ↔ c ∈ s.claims ∧ c.voice = v)
      ∧ ∀ i : StationId, ∃ l : List VoiceId, l.Nodup ∧ stationCount s i = l.length
          ∧ ∀ v, v ∈ l ↔
            (((s.voice v).state = .sounding ∨ (s.voice v).state = .releasing)
                ∧ ∃ o, (s.voice v).owner = some o ∧ o.station = i)
              ∨ ((s.voice v).state = .draining ∧ ∃ c ∈ s.claims, c.voice = v ∧ c.station = i))
    ∧ ∀ s t : State, PoolOk s → ReservesOk s → CapsHold s → step s = .next t → ReservesOk t ∧ CapsHold t

/-- Every step keeps each station's lifecycle: DISABLED exactly with enable 0, and then with no SYNC waiting (the
model's choice, log 20); outside LIVE the breath state and the fingering unit at rest and no work held; a note or a
pending onset only in LIVE with GATE set; the silence timer stopped exactly outside CALIBRATING and LIVE (R22, R40,
R55, R59, R127, R136, R150). Every step keeps the clip state of a DISABLED station unsaturated (R119). -/
def Obligations.StepsKeepTheLifecycle : Prop :=
  (∀ s t : State, LifecycleOk s → NotesGated s → SilenceOk s → step s = .next t →
    LifecycleOk t ∧ NotesGated t ∧ SilenceOk t)
    ∧ ∀ s t : State, ClipsOk s → step s = .next t → ClipsOk t

/-- Every step keeps the published level and bend within their limits (R4, R14, R18), the tags 1 to 255 (R61), the
fault capture's sets to the kinds 1 to 10 (R154), the templates and waves within their ranges, every wave a template
names being defined (R68, R70, R74, R122), what the link receivers hold within theirs, a character in assembly with
the bits whose moments have come and a reply being sent with one of its characters in transmission for at most eleven
bit times (R140, R141, R152), and the TDM frame position within the frame's 256 bit times (R120).
In a part whose breath states and stores are so, every step keeps each voice record within R108's ranges: pitches at
most 8191, the countdown 1 to 48 where it runs, amplitude and its target at most 65,472, the increment that of the
effective pitch (R112), a FREE voice with no record, and every layer copy of a voice or slot within its layer's
ranges on a region within the wave memory (R77). -/
def Obligations.StepsKeepTheRanges : Prop :=
  (∀ s t : State, BreathOk s → step s = .next t → BreathOk t)
    ∧ (∀ s t : State, TagsOk s → step s = .next t → TagsOk t)
    ∧ (∀ s t : State, FaultSetsOk s → step s = .next t → FaultSetsOk t)
    ∧ (∀ s t : State, StoresOk s → step s = .next t → StoresOk t)
    ∧ (∀ s t : State, LinksOk s → step s = .next t → LinksOk t)
    ∧ (∀ s t : State, FramePositionOk s → step s = .next t → FramePositionOk t)
    ∧ ∀ s t : State, BreathOk s → StoresOk s → VoicesOk s → step s = .next t → VoicesOk t

/-- The machine right after reset meets every invariant that the statements on steps carry. -/
def Obligations.ResetMeetsTheInvariants : Prop :=
  MemoryOk State.reset ∧ State.reset.charts.ok ∧ PoolOk State.reset ∧ ReservesOk State.reset
    ∧ CapsHold State.reset ∧ LifecycleOk State.reset ∧ NotesGated State.reset
    ∧ SilenceOk State.reset ∧ BreathOk State.reset ∧ TagsOk State.reset ∧ FaultSetsOk State.reset
    ∧ StoresOk State.reset ∧ LinksOk State.reset ∧ FramePositionOk State.reset ∧ ClipsOk State.reset
    ∧ SlotsListed State.reset
    ∧ VoicesOk State.reset
end

