-- ==== Sys2Proof/Laws/State.lean ====
section
/-! SUPPORT. What each update of State leaves and writes, field by field, so that no proof unfolds a record update. -/

namespace Sys2Proof.Machine

variable (s : State) (i j : StationId) (v w : VoiceId)

/-! ### A station after an update -/

@[simp] theorem station_updStation_self (f : Station → Station) :
    (s.updStation i f).station i = f (s.station i) := by
  simp [State.station, State.updStation]

@[simp] theorem station_updStation_ne (f : Station → Station) (h : j ≠ i) :
    (s.updStation i f).station j = s.station j := by
  simp only [State.station, State.updStation]
  have : i.val ≠ j.val := fun e => h (Fin.ext e.symm)
  simp [this]

theorem station_updStation (f : Station → Station) :
    (s.updStation i f).station j = if j = i then f (s.station i) else s.station j := by
  split
  · next h => subst h; simp
  · next h => simp [h]

theorem updBreath_eq (f : Breath → Breath) :
    s.updBreath i f = s.updStation i (fun x => { x with breath := f x.breath }) := rfl

theorem updFingering_eq (f : Fingering → Fingering) :
    s.updFingering i f = s.updStation i (fun x => { x with fingering := f x.fingering }) := rfl

theorem updLink_eq (f : Link → Link) :
    s.updLink i f = s.updStation i (fun x => { x with link := f x.link }) := rfl

theorem updCounters_eq (f : LinkCounters → LinkCounters) :
    s.updCounters i f =
      s.updStation i (fun x => { x with link := { x.link with counters := f x.link.counters } }) :=
  rfl

theorem updNote_eq (f : NoteRecord → NoteRecord) :
    s.updNote i f =
      s.updStation i (fun x =>
        { x with fingering := { x.fingering with note := x.fingering.note.map f } }) := rfl

/-! ### A voice after an update -/

@[simp] theorem voice_updVoice_self (f : Voice → Voice) :
    (s.updVoice v f).voice v = f (s.voice v) := by
  simp [State.voice, State.updVoice]

@[simp] theorem voice_updVoice_ne (f : Voice → Voice) (h : w ≠ v) :
    (s.updVoice v f).voice w = s.voice w := by
  simp only [State.voice, State.updVoice]
  have : v.val ≠ w.val := fun e => h (Fin.ext e.symm)
  simp [this]

theorem voice_updVoice (f : Voice → Voice) :
    (s.updVoice v f).voice w = if w = v then f (s.voice v) else s.voice w := by
  split
  · next h => subst h; simp
  · next h => simp [h]

/-! ### updStation -/

@[simp] theorem pending_updStation (f : Station → Station) :
    (s.updStation i f).pending = s.pending := rfl

@[simp] theorem timebase_updStation (f : Station → Station) :
    (s.updStation i f).timebase = s.timebase := rfl

@[simp] theorem clearRunning_updStation (f : Station → Station) :
    (s.updStation i f).clearRunning = s.clearRunning := rfl

@[simp] theorem rstAsserted_updStation (f : Station → Station) :
    (s.updStation i f).rstAsserted = s.rstAsserted := rfl

@[simp] theorem charts_updStation (f : Station → Station) :
    (s.updStation i f).charts = s.charts := rfl

@[simp] theorem templates_updStation (f : Station → Station) :
    (s.updStation i f).templates = s.templates := rfl

@[simp] theorem waves_updStation (f : Station → Station) :
    (s.updStation i f).waves = s.waves := rfl

@[simp] theorem memory_updStation (f : Station → Station) :
    (s.updStation i f).memory = s.memory := rfl

@[simp] theorem voices_updStation (f : Station → Station) :
    (s.updStation i f).voices = s.voices := rfl

@[simp] theorem freeList_updStation (f : Station → Station) :
    (s.updStation i f).freeList = s.freeList := rfl

@[simp] theorem claims_updStation (f : Station → Station) :
    (s.updStation i f).claims = s.claims := rfl

@[simp] theorem starve_updStation (f : Station → Station) :
    (s.updStation i f).starve = s.starve := rfl

@[simp] theorem tagCounter_updStation (f : Station → Station) :
    (s.updStation i f).tagCounter = s.tagCounter := rfl

@[simp] theorem audio_updStation (f : Station → Station) :
    (s.updStation i f).audio = s.audio := rfl

@[simp] theorem faults_updStation (f : Station → Station) :
    (s.updStation i f).faults = s.faults := rfl

@[simp] theorem port_updStation (f : Station → Station) :
    (s.updStation i f).port = s.port := rfl

@[simp] theorem draws_updStation (f : Station → Station) :
    (s.updStation i f).draws = s.draws := rfl

@[simp] theorem voice_updStation (f : Station → Station) :
    (s.updStation i f).voice v = s.voice v := rfl

/-! ### updVoice -/

@[simp] theorem pending_updVoice (f : Voice → Voice) :
    (s.updVoice v f).pending = s.pending := rfl

@[simp] theorem timebase_updVoice (f : Voice → Voice) :
    (s.updVoice v f).timebase = s.timebase := rfl

@[simp] theorem clearRunning_updVoice (f : Voice → Voice) :
    (s.updVoice v f).clearRunning = s.clearRunning := rfl

@[simp] theorem rstAsserted_updVoice (f : Voice → Voice) :
    (s.updVoice v f).rstAsserted = s.rstAsserted := rfl

@[simp] theorem stations_updVoice (f : Voice → Voice) :
    (s.updVoice v f).stations = s.stations := rfl

@[simp] theorem charts_updVoice (f : Voice → Voice) :
    (s.updVoice v f).charts = s.charts := rfl

@[simp] theorem templates_updVoice (f : Voice → Voice) :
    (s.updVoice v f).templates = s.templates := rfl

@[simp] theorem waves_updVoice (f : Voice → Voice) :
    (s.updVoice v f).waves = s.waves := rfl

@[simp] theorem memory_updVoice (f : Voice → Voice) :
    (s.updVoice v f).memory = s.memory := rfl

@[simp] theorem freeList_updVoice (f : Voice → Voice) :
    (s.updVoice v f).freeList = s.freeList := rfl

@[simp] theorem claims_updVoice (f : Voice → Voice) :
    (s.updVoice v f).claims = s.claims := rfl

@[simp] theorem starve_updVoice (f : Voice → Voice) :
    (s.updVoice v f).starve = s.starve := rfl

@[simp] theorem tagCounter_updVoice (f : Voice → Voice) :
    (s.updVoice v f).tagCounter = s.tagCounter := rfl

@[simp] theorem audio_updVoice (f : Voice → Voice) :
    (s.updVoice v f).audio = s.audio := rfl

@[simp] theorem faults_updVoice (f : Voice → Voice) :
    (s.updVoice v f).faults = s.faults := rfl

@[simp] theorem port_updVoice (f : Voice → Voice) :
    (s.updVoice v f).port = s.port := rfl

@[simp] theorem draws_updVoice (f : Voice → Voice) :
    (s.updVoice v f).draws = s.draws := rfl

@[simp] theorem station_updVoice (f : Voice → Voice) :
    (s.updVoice v f).station i = s.station i := rfl

@[simp] theorem note_updVoice (f : Voice → Voice) :
    (s.updVoice v f).note i = s.note i := rfl

/-! ### setSlot -/

@[simp] theorem pending_setSlot (tag : Nat) (layer : LayerId) (x : SlotState) :
    (setSlot s i tag layer x).pending = s.pending := rfl

@[simp] theorem timebase_setSlot (tag : Nat) (layer : LayerId) (x : SlotState) :
    (setSlot s i tag layer x).timebase = s.timebase := rfl

@[simp] theorem clearRunning_setSlot (tag : Nat) (layer : LayerId) (x : SlotState) :
    (setSlot s i tag layer x).clearRunning = s.clearRunning := rfl

@[simp] theorem rstAsserted_setSlot (tag : Nat) (layer : LayerId) (x : SlotState) :
    (setSlot s i tag layer x).rstAsserted = s.rstAsserted := rfl

@[simp] theorem charts_setSlot (tag : Nat) (layer : LayerId) (x : SlotState) :
    (setSlot s i tag layer x).charts = s.charts := rfl

@[simp] theorem templates_setSlot (tag : Nat) (layer : LayerId) (x : SlotState) :
    (setSlot s i tag layer x).templates = s.templates := rfl

@[simp] theorem waves_setSlot (tag : Nat) (layer : LayerId) (x : SlotState) :
    (setSlot s i tag layer x).waves = s.waves := rfl

@[simp] theorem memory_setSlot (tag : Nat) (layer : LayerId) (x : SlotState) :
    (setSlot s i tag layer x).memory = s.memory := rfl

@[simp] theorem voices_setSlot (tag : Nat) (layer : LayerId) (x : SlotState) :
    (setSlot s i tag layer x).voices = s.voices := rfl

@[simp] theorem freeList_setSlot (tag : Nat) (layer : LayerId) (x : SlotState) :
    (setSlot s i tag layer x).freeList = s.freeList := rfl

@[simp] theorem claims_setSlot (tag : Nat) (layer : LayerId) (x : SlotState) :
    (setSlot s i tag layer x).claims = s.claims := rfl

@[simp] theorem starve_setSlot (tag : Nat) (layer : LayerId) (x : SlotState) :
    (setSlot s i tag layer x).starve = s.starve := rfl

@[simp] theorem tagCounter_setSlot (tag : Nat) (layer : LayerId) (x : SlotState) :
    (setSlot s i tag layer x).tagCounter = s.tagCounter := rfl

@[simp] theorem audio_setSlot (tag : Nat) (layer : LayerId) (x : SlotState) :
    (setSlot s i tag layer x).audio = s.audio := rfl

@[simp] theorem faults_setSlot (tag : Nat) (layer : LayerId) (x : SlotState) :
    (setSlot s i tag layer x).faults = s.faults := rfl

@[simp] theorem port_setSlot (tag : Nat) (layer : LayerId) (x : SlotState) :
    (setSlot s i tag layer x).port = s.port := rfl

@[simp] theorem draws_setSlot (tag : Nat) (layer : LayerId) (x : SlotState) :
    (setSlot s i tag layer x).draws = s.draws := rfl

@[simp] theorem voice_setSlot (tag : Nat) (layer : LayerId) (x : SlotState) :
    (setSlot s i tag layer x).voice v = s.voice v := rfl

/-! ### report -/

@[simp] theorem pending_report (k : FaultKind) (st : Option StationId) (vo : Option VoiceId) (tag : Option Nat)
    (d : Word) :
    (report s k st vo tag d).pending = s.pending := rfl

@[simp] theorem timebase_report (k : FaultKind) (st : Option StationId) (vo : Option VoiceId) (tag : Option Nat)
    (d : Word) :
    (report s k st vo tag d).timebase = s.timebase := rfl

@[simp] theorem clearRunning_report (k : FaultKind) (st : Option StationId) (vo : Option VoiceId) (tag : Option Nat)
    (d : Word) :
    (report s k st vo tag d).clearRunning = s.clearRunning := rfl

@[simp] theorem rstAsserted_report (k : FaultKind) (st : Option StationId) (vo : Option VoiceId) (tag : Option Nat)
    (d : Word) :
    (report s k st vo tag d).rstAsserted = s.rstAsserted := rfl

@[simp] theorem stations_report (k : FaultKind) (st : Option StationId) (vo : Option VoiceId) (tag : Option Nat)
    (d : Word) :
    (report s k st vo tag d).stations = s.stations := rfl

@[simp] theorem charts_report (k : FaultKind) (st : Option StationId) (vo : Option VoiceId) (tag : Option Nat)
    (d : Word) :
    (report s k st vo tag d).charts = s.charts := rfl

@[simp] theorem templates_report (k : FaultKind) (st : Option StationId) (vo : Option VoiceId) (tag : Option Nat)
    (d : Word) :
    (report s k st vo tag d).templates = s.templates := rfl

@[simp] theorem waves_report (k : FaultKind) (st : Option StationId) (vo : Option VoiceId) (tag : Option Nat)
    (d : Word) :
    (report s k st vo tag d).waves = s.waves := rfl

@[simp] theorem memory_report (k : FaultKind) (st : Option StationId) (vo : Option VoiceId) (tag : Option Nat)
    (d : Word) :
    (report s k st vo tag d).memory = s.memory := rfl

@[simp] theorem voices_report (k : FaultKind) (st : Option StationId) (vo : Option VoiceId) (tag : Option Nat)
    (d : Word) :
    (report s k st vo tag d).voices = s.voices := rfl

@[simp] theorem freeList_report (k : FaultKind) (st : Option StationId) (vo : Option VoiceId) (tag : Option Nat)
    (d : Word) :
    (report s k st vo tag d).freeList = s.freeList := rfl

@[simp] theorem claims_report (k : FaultKind) (st : Option StationId) (vo : Option VoiceId) (tag : Option Nat)
    (d : Word) :
    (report s k st vo tag d).claims = s.claims := rfl

@[simp] theorem starve_report (k : FaultKind) (st : Option StationId) (vo : Option VoiceId) (tag : Option Nat)
    (d : Word) :
    (report s k st vo tag d).starve = s.starve := rfl

@[simp] theorem tagCounter_report (k : FaultKind) (st : Option StationId) (vo : Option VoiceId) (tag : Option Nat)
    (d : Word) :
    (report s k st vo tag d).tagCounter = s.tagCounter := rfl

@[simp] theorem audio_report (k : FaultKind) (st : Option StationId) (vo : Option VoiceId) (tag : Option Nat)
    (d : Word) :
    (report s k st vo tag d).audio = s.audio := rfl

@[simp] theorem port_report (k : FaultKind) (st : Option StationId) (vo : Option VoiceId) (tag : Option Nat)
    (d : Word) :
    (report s k st vo tag d).port = s.port := rfl

@[simp] theorem draws_report (k : FaultKind) (st : Option StationId) (vo : Option VoiceId) (tag : Option Nat)
    (d : Word) :
    (report s k st vo tag d).draws = s.draws := rfl

@[simp] theorem voice_report (k : FaultKind) (st : Option StationId) (vo : Option VoiceId) (tag : Option Nat)
    (d : Word) :
    (report s k st vo tag d).voice v = s.voice v := rfl

@[simp] theorem station_report (k : FaultKind) (st : Option StationId) (vo : Option VoiceId) (tag : Option Nat)
    (d : Word) :
    (report s k st vo tag d).station i = s.station i := rfl

@[simp] theorem note_report (k : FaultKind) (st : Option StationId) (vo : Option VoiceId) (tag : Option Nat)
    (d : Word) :
    (report s k st vo tag d).note i = s.note i := rfl

@[simp] theorem faults_report (k : FaultKind) (st : Option StationId) (vo : Option VoiceId)
    (tag : Option Nat) (d : Word) :
    (report s k st vo tag d).faults = s.faults.take ⟨k, st, vo, tag, d, s.timebase⟩ := rfl

/-! ### answered -/

@[simp] theorem pending_answered (c : ResultCode) (r : List Byte) :
    (s.answered c r).pending = s.pending := rfl

@[simp] theorem timebase_answered (c : ResultCode) (r : List Byte) :
    (s.answered c r).timebase = s.timebase := rfl

@[simp] theorem clearRunning_answered (c : ResultCode) (r : List Byte) :
    (s.answered c r).clearRunning = s.clearRunning := rfl

@[simp] theorem rstAsserted_answered (c : ResultCode) (r : List Byte) :
    (s.answered c r).rstAsserted = s.rstAsserted := rfl

@[simp] theorem stations_answered (c : ResultCode) (r : List Byte) :
    (s.answered c r).stations = s.stations := rfl

@[simp] theorem charts_answered (c : ResultCode) (r : List Byte) :
    (s.answered c r).charts = s.charts := rfl

@[simp] theorem templates_answered (c : ResultCode) (r : List Byte) :
    (s.answered c r).templates = s.templates := rfl

@[simp] theorem waves_answered (c : ResultCode) (r : List Byte) :
    (s.answered c r).waves = s.waves := rfl

@[simp] theorem memory_answered (c : ResultCode) (r : List Byte) :
    (s.answered c r).memory = s.memory := rfl

@[simp] theorem voices_answered (c : ResultCode) (r : List Byte) :
    (s.answered c r).voices = s.voices := rfl

@[simp] theorem freeList_answered (c : ResultCode) (r : List Byte) :
    (s.answered c r).freeList = s.freeList := rfl

@[simp] theorem claims_answered (c : ResultCode) (r : List Byte) :
    (s.answered c r).claims = s.claims := rfl

@[simp] theorem starve_answered (c : ResultCode) (r : List Byte) :
    (s.answered c r).starve = s.starve := rfl

@[simp] theorem tagCounter_answered (c : ResultCode) (r : List Byte) :
    (s.answered c r).tagCounter = s.tagCounter := rfl

@[simp] theorem audio_answered (c : ResultCode) (r : List Byte) :
    (s.answered c r).audio = s.audio := rfl

@[simp] theorem faults_answered (c : ResultCode) (r : List Byte) :
    (s.answered c r).faults = s.faults := rfl

@[simp] theorem draws_answered (c : ResultCode) (r : List Byte) :
    (s.answered c r).draws = s.draws := rfl

@[simp] theorem voice_answered (c : ResultCode) (r : List Byte) :
    (s.answered c r).voice v = s.voice v := rfl

@[simp] theorem station_answered (c : ResultCode) (r : List Byte) :
    (s.answered c r).station i = s.station i := rfl

@[simp] theorem note_answered (c : ResultCode) (r : List Byte) :
    (s.answered c r).note i = s.note i := rfl

@[simp] theorem port_answered (c : ResultCode) (r : List Byte) :
    (s.answered c r).port = { s.port with phase := .response c r } := rfl

/-! ### A clip state cleared, and the next free value numbered anew -/

@[simp] theorem pending_unclip : (s.unclip i).pending = s.pending := rfl

@[simp] theorem timebase_unclip : (s.unclip i).timebase = s.timebase := rfl

@[simp] theorem clearRunning_unclip : (s.unclip i).clearRunning = s.clearRunning := rfl

@[simp] theorem rstAsserted_unclip : (s.unclip i).rstAsserted = s.rstAsserted := rfl

@[simp] theorem stations_unclip : (s.unclip i).stations = s.stations := rfl

@[simp] theorem charts_unclip : (s.unclip i).charts = s.charts := rfl

@[simp] theorem templates_unclip : (s.unclip i).templates = s.templates := rfl

@[simp] theorem waves_unclip : (s.unclip i).waves = s.waves := rfl

@[simp] theorem memory_unclip : (s.unclip i).memory = s.memory := rfl

@[simp] theorem voices_unclip : (s.unclip i).voices = s.voices := rfl

@[simp] theorem freeList_unclip : (s.unclip i).freeList = s.freeList := rfl

@[simp] theorem claims_unclip : (s.unclip i).claims = s.claims := rfl

@[simp] theorem starve_unclip : (s.unclip i).starve = s.starve := rfl

@[simp] theorem tagCounter_unclip : (s.unclip i).tagCounter = s.tagCounter := rfl

@[simp] theorem faults_unclip : (s.unclip i).faults = s.faults := rfl

@[simp] theorem port_unclip : (s.unclip i).port = s.port := rfl

@[simp] theorem draws_unclip : (s.unclip i).draws = s.draws := rfl

@[simp] theorem audio_unclip :
    (s.unclip i).audio = { s.audio with clip := s.audio.clip.set i false } := rfl

@[simp] theorem voice_unclip : (s.unclip i).voice v = s.voice v := rfl

@[simp] theorem station_unclip : (s.unclip i).station j = s.station j := rfl

@[simp] theorem note_unclip : (s.unclip i).note j = s.note j := rfl

@[simp] theorem pending_nextDraw : (nextDraw s).pending = s.pending := rfl

@[simp] theorem timebase_nextDraw : (nextDraw s).timebase = s.timebase := rfl

@[simp] theorem clearRunning_nextDraw : (nextDraw s).clearRunning = s.clearRunning := rfl

@[simp] theorem rstAsserted_nextDraw : (nextDraw s).rstAsserted = s.rstAsserted := rfl

@[simp] theorem stations_nextDraw : (nextDraw s).stations = s.stations := rfl

@[simp] theorem charts_nextDraw : (nextDraw s).charts = s.charts := rfl

@[simp] theorem templates_nextDraw : (nextDraw s).templates = s.templates := rfl

@[simp] theorem waves_nextDraw : (nextDraw s).waves = s.waves := rfl

@[simp] theorem memory_nextDraw : (nextDraw s).memory = s.memory := rfl

@[simp] theorem voices_nextDraw : (nextDraw s).voices = s.voices := rfl

@[simp] theorem freeList_nextDraw : (nextDraw s).freeList = s.freeList := rfl

@[simp] theorem claims_nextDraw : (nextDraw s).claims = s.claims := rfl

@[simp] theorem starve_nextDraw : (nextDraw s).starve = s.starve := rfl

@[simp] theorem tagCounter_nextDraw : (nextDraw s).tagCounter = s.tagCounter := rfl

@[simp] theorem audio_nextDraw : (nextDraw s).audio = s.audio := rfl

@[simp] theorem faults_nextDraw : (nextDraw s).faults = s.faults := rfl

@[simp] theorem port_nextDraw : (nextDraw s).port = s.port := rfl

@[simp] theorem draws_nextDraw : (nextDraw s).draws = s.draws + 1 := rfl

@[simp] theorem voice_nextDraw : (nextDraw s).voice v = s.voice v := rfl

@[simp] theorem station_nextDraw : (nextDraw s).station i = s.station i := rfl

@[simp] theorem note_nextDraw : (nextDraw s).note i = s.note i := rfl

/-! ### The fault capture's policy -/

@[simp] theorem enable_take (f : FaultCapture) (r : FaultRecord) : (f.take r).enable = f.enable := by
  unfold FaultCapture.take; split
  · split <;> rfl
  · rfl

@[simp] theorem mask_take (f : FaultCapture) (r : FaultRecord) : (f.take r).mask = f.mask := by
  unfold FaultCapture.take; split
  · split <;> rfl
  · rfl

end Sys2Proof.Machine
end

