-- ==== Sys2Proof/Laws/Pool.lean ====
section
/-! SUPPORT. The voice allocator's operations: one lemma each that says what the operation leaves. -/

namespace Sys2Proof.Machine

/-! ### The frame of the allocator -/

/-- Changing nothing keeps the frame. -/
theorem AllocatorFrame.refl (s : State) : AllocatorFrame s s :=
  ⟨⟨rfl, rfl, rfl, rfl⟩, ⟨rfl, rfl, rfl, rfl, rfl, rfl, rfl⟩, fun _ => rfl, rfl, rfl, rfl⟩

/-- Two operations in turn keep the frame. -/
theorem AllocatorFrame.trans {s t u : State} (h : AllocatorFrame s t) (k : AllocatorFrame t u) :
    AllocatorFrame s u := by
  obtain ⟨⟨a1, a2, a3, a4⟩, ⟨b1, b2, b3, b4, b5, b6, b7⟩, c, d, e, f⟩ := h
  obtain ⟨⟨a1', a2', a3', a4'⟩, ⟨b1', b2', b3', b4', b5', b6', b7'⟩, c', d', e', f'⟩ := k
  exact ⟨⟨a1'.trans a1, a2'.trans a2, a3'.trans a3, a4'.trans a4⟩,
    ⟨b1'.trans b1, b2'.trans b2, b3'.trans b3, b4'.trans b4, b5'.trans b5, b6'.trans b6,
      b7'.trans b7⟩,
    fun j => (c' j).trans (c j), d'.trans d, e'.trans e, f'.trans f⟩

/-- A fold of operations that each keep the frame keeps it. -/
theorem AllocatorFrame.foldl {α : Type} (f : State → α → State)
    (hf : ∀ s a, AllocatorFrame s (f s a)) (l : List α) (s : State) :
    AllocatorFrame s (l.foldl f s) := by
  induction l generalizing s with
  | nil => exact .refl s
  | cons a l ih => exact (hf s a).trans (ih (f s a))

/-- Writing the pool's own fields keeps the frame. -/
theorem allocatorFrame_poolFields (s : State) (voices : Vector Voice 32) (fl : List VoiceId)
    (cl : List Claim) (st : List Starved) :
    AllocatorFrame s { s with voices := voices, freeList := fl, claims := cl, starve := st } :=
  ⟨⟨rfl, rfl, rfl, rfl⟩, ⟨rfl, rfl, rfl, rfl, rfl, rfl, rfl⟩, fun _ => rfl, rfl, rfl, rfl⟩

/-- A voice's update keeps the frame. -/
theorem allocatorFrame_updVoice (s : State) (v : VoiceId) (f : Voice → Voice) :
    AllocatorFrame s (s.updVoice v f) := allocatorFrame_poolFields s _ _ _ _

/-- Replacing one slot's state leaves the record the same without its slots' states. -/
theorem NoteRecord.unslotted_setSlot (n : NoteRecord) (tag : Nat) (layer : LayerId) (x : SlotState) :
    NoteRecord.unslotted
      (if n.tag = tag then
        { n with
          slots := n.slots.map fun sl => if sl.layer = layer then { sl with state := x } else sl }
      else n) = n.unslotted := by
  split
  · simp only [NoteRecord.unslotted, List.map_map]
    congr 1
    apply List.map_congr_left
    intro sl _
    simp only [Function.comp]
    split <;> rfl
  · rfl

/-- A slot's new state keeps the frame. -/
theorem allocatorFrame_setSlot (s : State) (i : StationId) (tag : Nat) (layer : LayerId)
    (x : SlotState) : AllocatorFrame s (setSlot s i tag layer x) := by
  refine ⟨⟨rfl, rfl, rfl, rfl⟩, ⟨rfl, rfl, rfl, rfl, rfl, rfl, rfl⟩, fun j => ?_, rfl, rfl, rfl⟩
  unfold SameStation setSlot
  rw [updNote_eq, station_updStation]
  split
  · next h =>
    subst h
    simp only [Station.unslotted, Option.map_map]
    congr 2
    cases (s.station j).fingering.note with
    | none => rfl
    | some n => exact congrArg some (NoteRecord.unslotted_setSlot n tag layer x)
  · rfl

/-- A report keeps the frame. -/
theorem allocatorFrame_report (s : State) (k : FaultKind) (st : Option StationId)
    (vo : Option VoiceId) (tag : Option Nat) (d : Word) :
    AllocatorFrame s (report s k st vo tag d) :=
  ⟨⟨rfl, rfl, rfl, rfl⟩, ⟨rfl, rfl, rfl, rfl, rfl, rfl, rfl⟩, fun _ => rfl, rfl,
    enable_take _ _, mask_take _ _⟩

/-- A slot that starves keeps the frame. -/
theorem allocatorFrame_starveSlot (s : State) (i : StationId) (tag : Nat) (layer : LayerId) :
    AllocatorFrame s (starveSlot s i tag layer) :=
  (allocatorFrame_setSlot s i tag layer .starved).trans (allocatorFrame_poolFields _ _ _ _ _)

/-- A voice given to a slot keeps the frame. -/
theorem allocatorFrame_giveVoice (s : State) (v : VoiceId) (i : StationId) (tag : Nat)
    (layer : LayerId) : AllocatorFrame s (giveVoice s v i tag layer) :=
  (allocatorFrame_updVoice s v _).trans (allocatorFrame_setSlot _ i tag layer _)

/-- A release keeps the frame. -/
theorem allocatorFrame_releaseVoice (s : State) (v : VoiceId) :
    AllocatorFrame s (releaseVoice s v) := allocatorFrame_updVoice s v _

/-- A cancelled claim keeps the frame. -/
theorem allocatorFrame_dropClaim (s : State) (i : StationId) (tag : Nat) (layer : LayerId) :
    AllocatorFrame s (dropClaim s i tag layer) := allocatorFrame_poolFields s _ _ _ _

/-- A starve removal keeps the frame. -/
theorem allocatorFrame_dropStarved (s : State) (i : StationId) (tag : Nat) (layer : LayerId) :
    AllocatorFrame s (dropStarved s i tag layer) := allocatorFrame_poolFields s _ _ _ _

/-- A steal keeps the frame. -/
theorem allocatorFrame_stealVoice (s : State) (v : VoiceId) (i : StationId) (tag : Nat)
    (layer : LayerId) : AllocatorFrame s (stealVoice s v i tag layer) := by
  unfold stealVoice
  refine AllocatorFrame.trans ?_ (allocatorFrame_setSlot _ i tag layer _)
  refine AllocatorFrame.trans ?_ (allocatorFrame_poolFields _ _ _ _ _)
  refine AllocatorFrame.trans ?_ (allocatorFrame_updVoice _ v _)
  split
  · exact allocatorFrame_starveSlot s _ _ _
  · exact .refl s

/-- A claim that starves keeps the frame. -/
theorem allocatorFrame_starveClaim (s : State) (i : StationId) (tag : Nat) (layer : LayerId) :
    AllocatorFrame s (starveClaim s i tag layer) :=
  (allocatorFrame_starveSlot s i tag layer).trans (allocatorFrame_report _ _ _ _ _ _)

/-- A claim served by a steal or starving keeps the frame. -/
theorem allocatorFrame_stealOrStarve (s : State) (victim : Option VoiceId) (i : StationId)
    (tag : Nat) (layer : LayerId) : AllocatorFrame s (stealOrStarve s victim i tag layer) := by
  unfold stealOrStarve
  split
  · exact allocatorFrame_stealVoice s _ i tag layer
  · exact allocatorFrame_starveClaim s i tag layer

/-- A claim keeps the frame. -/
theorem allocatorFrame_claimVoice (s : State) (i : StationId) (tag : Nat) (layer : LayerId) :
    AllocatorFrame s (claimVoice s i tag layer) := by
  unfold claimVoice
  split
  · exact allocatorFrame_stealOrStarve s _ i tag layer
  · split
    · split
      · exact (allocatorFrame_poolFields s _ _ _ _).trans (allocatorFrame_giveVoice _ _ i tag layer)
      · exact allocatorFrame_stealOrStarve s _ i tag layer
    · exact allocatorFrame_stealOrStarve s _ i tag layer

/-- A handover keeps the frame. -/
theorem allocatorFrame_handOver (s : State) (c : Claim) : AllocatorFrame s (handOver s c) :=
  (allocatorFrame_poolFields s _ _ _ _).trans (allocatorFrame_giveVoice _ _ _ _ _)

/-- A freed voice keeps the frame. -/
theorem allocatorFrame_freeVoice (s : State) (v : VoiceId) : AllocatorFrame s (freeVoice s v) := by
  unfold freeVoice
  refine (allocatorFrame_updVoice s v fun _ => Voice.free).trans ?_
  dsimp only
  split
  · exact (allocatorFrame_poolFields _ _ _ _ _).trans (allocatorFrame_giveVoice _ _ _ _ _)
  · exact allocatorFrame_poolFields _ _ _ _ _

/-- The starve-list service keeps the frame. -/
theorem allocatorFrame_serveEntries (l : List Starved) (s : State) :
    AllocatorFrame s (serveEntries l s) := by
  induction l generalizing s with
  | nil => exact .refl s
  | cons e l ih =>
    unfold serveEntries
    split
    · exact .refl s
    · split
      · exact ((allocatorFrame_poolFields s _ _ _ _).trans
          (allocatorFrame_giveVoice _ _ _ _ _)).trans (ih _)
      · exact ih s

/-- The starve-list service from the free list keeps the frame. -/
theorem allocatorFrame_serveStarved (s : State) : AllocatorFrame s (serveStarved s) :=
  allocatorFrame_serveEntries _ s

/-- What NOTE_OFF does for one slot keeps the frame. -/
theorem allocatorFrame_endSlot (i : StationId) (tag : Nat) (s : State) (x : Slot) :
    AllocatorFrame s (endSlot i tag s x) := by
  unfold endSlot
  split
  · exact allocatorFrame_releaseVoice s _
  · exact allocatorFrame_dropClaim s _ _ _
  · exact allocatorFrame_dropStarved s _ _ _
  · exact .refl s

/-- A retune keeps the frame. -/
theorem allocatorFrame_retune (s : State) (i : StationId) : AllocatorFrame s (retune s i) := by
  unfold retune
  split
  · refine AllocatorFrame.foldl _ (fun s x => ?_) _ s
    unfold retuneSlot
    split
    · exact allocatorFrame_updVoice s _ _
    · exact .refl s
    · exact .refl s
    · exact .refl s
  · exact .refl s

/-- One removal under a lowered cap keeps the frame. -/
theorem allocatorFrame_removeOne (s : State) (i : StationId) : AllocatorFrame s (removeOne s i) := by
  unfold removeOne
  split
  · exact allocatorFrame_updVoice s _ _
  · split
    · split
      · exact (allocatorFrame_updVoice s _ _).trans (allocatorFrame_starveSlot _ _ _ _)
      · exact allocatorFrame_updVoice s _ _
    · split
      · exact (allocatorFrame_dropClaim s _ _ _).trans (allocatorFrame_starveSlot _ _ _ _)
      · exact .refl s

/-- The removals under a lowered cap keep the frame. -/
theorem allocatorFrame_lowerToCap (s : State) (i : StationId) :
    AllocatorFrame s (lowerToCap s i) := by
  unfold lowerToCap
  generalize 32 = fuel
  induction fuel generalizing s with
  | zero => exact .refl s
  | succ n ih =>
    unfold removeToCap
    split
    · exact .refl s
    · exact (allocatorFrame_removeOne s i).trans (ih _)

/-- A claim made again keeps the frame. -/
theorem allocatorFrame_reclaim (s : State) (o : Option Owner) : AllocatorFrame s (reclaim s o) := by
  unfold reclaim
  split
  · exact allocatorFrame_claimVoice s _ _ _
  · exact .refl s

/-- A voice that becomes FAULTED keeps the frame. -/
theorem allocatorFrame_faultVoice (s : State) (v : VoiceId) : AllocatorFrame s (faultVoice s v) :=
  ((allocatorFrame_poolFields s _ _ _ _).trans (allocatorFrame_updVoice _ v _)).trans
    (allocatorFrame_reclaim _ _)

/-- A voice made an orphan by a parity error keeps the frame. -/
theorem allocatorFrame_orphanVoice (s : State) (v : VoiceId) :
    AllocatorFrame s (orphanVoice s v) :=
  ((allocatorFrame_poolFields s _ _ _ _).trans (allocatorFrame_updVoice _ v _)).trans
    (allocatorFrame_reclaim _ _)

/-! ### What a claim cannot touch -/

/-- The best of a list is in the list. -/
theorem mem_of_best {rank : VoiceId → Nat} {vs : List VoiceId} {v : VoiceId}
    (h : best rank vs = some v) : v ∈ vs := by
  induction vs generalizing v with
  | nil => cases h
  | cons a l ih =>
    unfold best at h
    split at h
    · next w hw =>
      split at h
      · cases h; exact List.mem_cons_self
      · cases h; exact List.mem_cons_of_mem _ (ih hw)
    · cases h; exact List.mem_cons_self

/-- A victim of the steal order is RELEASING or SOUNDING (R87). -/
theorem state_of_victim {s : State} {i : StationId} {tag : Nat} {layer : LayerId} {v : VoiceId}
    (h : victimBelowCap s i tag layer = some v ∨ victimAtCap s i tag layer = some v) :
    (s.voice v).state = .releasing ∨ (s.voice v).state = .sounding := by
  have a : tierA s i = some v → (s.voice v).state = .releasing := by
    intro h; have := mem_of_best h; simp at this; exact this.2.1
  have b : tierB s i = some v → (s.voice v).state = .releasing := by
    intro h; have := mem_of_best h; simp [ofOthersOver] at this; exact this.2.1
  have c : tierC s i tag layer = some v → (s.voice v).state = .sounding := by
    intro h; have := mem_of_best h; simp at this; exact this.2.1
  have d : tierD s i = some v → (s.voice v).state = .sounding := by
    intro h
    unfold tierD at h
    split at h
    · have := mem_of_best h; simp [ofOthersOver] at this; exact this.2.1
    · cases h
  have one : ∀ x y : Option VoiceId, (x <|> y) = some v → x = some v ∨ y = some v := by
    intro x y h
    cases x with
    | none => exact .inr h
    | some w => exact .inl h
  rcases h with h | h
  · rcases one _ _ h with h | h
    · exact .inl (a h)
    · rcases one _ _ h with h | h
      · exact .inl (b h)
      · rcases one _ _ h with h | h
        · exact .inr (c h)
        · exact .inr (d h)
  · rcases one _ _ h with h | h
    · exact .inl (a h)
    · exact .inr (c h)

/-- A voice given to a slot leaves the other voices as they were. -/
theorem voice_giveVoice_ne {s : State} {v w : VoiceId} {i : StationId} {tag : Nat} {layer : LayerId}
    (h : v ≠ w) : (giveVoice s w i tag layer).voice v = s.voice v := by
  simp [giveVoice, voice_updVoice_ne _ _ _ _ h]

/-- A steal leaves a voice other than its victim, and what it is bound to, as they were. -/
theorem untouched_stealOrStarve {s : State} {victim : Option VoiceId} {i : StationId} {tag : Nat}
    {layer : LayerId} {v : VoiceId} (h : ∀ w, victim = some w → v ≠ w) :
    (stealOrStarve s victim i tag layer).voice v = s.voice v
      ∧ claimOf (stealOrStarve s victim i tag layer) v = claimOf s v := by
  unfold stealOrStarve
  cases victim with
  | some w =>
    have hne : v ≠ w := h w rfl
    have drained : ∀ s1 : State, s1.voices = s.voices → s1.claims = s.claims →
        ({ s1.updVoice w Voice.toDrain with
            claims := s1.claims ++ [⟨i, tag, layer, w⟩] } : State).voice v = s.voice v
          ∧ (s1.claims ++ [(⟨i, tag, layer, w⟩ : Claim)]).find? (fun c => c.voice == v) =
              s.claims.find? (fun c => c.voice == v) := by
      intro s1 hv hc
      have kept : (s1.updVoice w Voice.toDrain).voice v =
          s.voice v :=
        (voice_updVoice_ne s1 w v _ hne).trans (congrArg (fun x : Vector Voice 32 => x[v]) hv)
      refine ⟨kept, ?_⟩
      rw [hc, List.find?_append]
      simp [Ne.symm hne]
    dsimp only [stealVoice, claimOf]
    split
    · exact drained (starveSlot s _ _ _) rfl rfl
    · exact drained s rfl rfl
  | none =>
    unfold starveClaim claimOf
    simp
    exact ⟨rfl, rfl⟩

/-- A claim leaves a voice that is FAULTED or DRAINING, and what it is bound to, as they were. -/
theorem untouched_claimVoice {s : State} (i : StationId) (tag : Nat) (layer : LayerId)
    {v : VoiceId} (free : ∀ w ∈ s.freeList, (s.voice w).state = .free)
    (h : (s.voice v).state = .faulted ∨ (s.voice v).state = .draining) :
    (claimVoice s i tag layer).voice v = s.voice v
      ∧ claimOf (claimVoice s i tag layer) v = claimOf s v := by
  have key : ∀ victim, (victim = victimBelowCap s i tag layer ∨ victim = victimAtCap s i tag layer) →
      ∀ w, victim = some w → v ≠ w := by
    rintro victim hv w hw rfl
    have := state_of_victim (s := s) (i := i) (tag := tag) (layer := layer) (v := v)
      (by
        rcases hv with e | e
        · exact .inl (e ▸ hw)
        · exact .inr (e ▸ hw))
    rcases h with h | h <;> rw [h] at this <;> rcases this with t | t <;> cases t
  unfold claimVoice
  split
  · exact untouched_stealOrStarve (key _ (.inr rfl))
  · split
    · next w rest hl =>
      split
      · have hne : v ≠ w := by
          rintro rfl
          have := free v (by rw [hl]; exact List.mem_cons_self)
          rw [this] at h
          rcases h with h | h <;> cases h
        exact ⟨voice_giveVoice_ne hne, rfl⟩
      · exact untouched_stealOrStarve (key _ (.inl rfl))
    · exact untouched_stealOrStarve (key _ (.inl rfl))

/-! ### Bindings -/

/-- In a pool whose lists are sound a voice is bound to the claim that names it (R80, R90). -/
theorem claimOf_eq_some_iff {s : State} (h : PoolOk s) (v : VoiceId) (c : Claim) :
    claimOf s v = some c ↔ c ∈ s.claims ∧ c.voice = v := by
  have distinct : (s.claims.map Claim.voice).Nodup := h.2.2.1
  unfold claimOf
  constructor
  · intro h
    exact ⟨List.mem_of_find?_eq_some h, by simpa using List.find?_some h⟩
  · rintro ⟨hc, rfl⟩
    revert distinct hc
    generalize s.claims = l
    induction l with
    | nil => intro _ h; cases h
    | cons a l ih =>
      intro distinct hc
      simp only [List.map_cons, List.nodup_cons] at distinct
      simp only [List.find?_cons]
      by_cases e : a.voice = c.voice
      · simp only [e, beq_self_eq_true]
        rcases List.mem_cons.mp hc with rfl | hc
        · rfl
        · exact absurd (List.mem_map.mpr ⟨c, hc, e.symm⟩) distinct.1
      · have : (a.voice == c.voice) = false := by simpa using e
        simp only [this]
        rcases List.mem_cons.mp hc with rfl | hc
        · exact absurd rfl e
        · exact ih distinct.2 hc

/-! ### Slots -/

/-- Finding a slot of a layer among slots of which those of one layer have a new state. -/
theorem find?_setState (l : List Slot) (layer other : LayerId) (x : SlotState) :
    (l.map fun sl => if sl.layer = layer then { sl with state := x } else sl).find?
        (fun sl => sl.layer == other) =
      if other = layer then (l.find? fun sl => sl.layer == other).map fun sl => { sl with state := x }
      else l.find? fun sl => sl.layer == other := by
  induction l with
  | nil => split <;> rfl
  | cons a l ih =>
    have same : (if a.layer = layer then { a with state := x } else a).layer = a.layer := by
      split <;> rfl
    simp only [List.map_cons, List.find?_cons, same]
    by_cases ho : a.layer = other
    · subst ho
      simp only [beq_self_eq_true]
      split <;> rfl
    · have : (a.layer == other) = false := by simpa using ho
      simp only [this]
      exact ih

/-- A slot after a slot's state is set: that slot has the new state, every other is as it was. -/
theorem slotOf_setSlot (s : State) (i j : StationId) (tag other : Nat) (layer lay : LayerId)
    (x : SlotState) :
    slotOf (setSlot s i tag layer x) j other lay =
      if j = i ∧ other = tag ∧ lay = layer then
        (slotOf s j other lay).map fun sl => { sl with state := x }
      else slotOf s j other lay := by
  have note : (setSlot s i tag layer x).note j =
      if j = i then (s.note j).map fun n =>
        if n.tag = tag then
          { n with
            slots := n.slots.map fun sl => if sl.layer = layer then { sl with state := x } else sl }
        else n
      else s.note j := by
    unfold setSlot State.note
    rw [updNote_eq, station_updStation]
    split
    · next e => rw [e]
    · rfl
  unfold slotOf
  rw [note]
  by_cases hj : j = i
  · simp only [hj, if_true, true_and]
    cases s.note i with
    | none => simp
    | some n =>
      simp only [Option.map_some]
      by_cases ht : n.tag = tag
      · simp only [ht, if_true]
        by_cases ho : tag = other
        · simp only [ho, if_true, true_and, find?_setState]
        · simp [ho]
      · simp only [ht, if_false]
        by_cases ho : n.tag = other
        · have : ¬ other = tag := fun e => ht (ho.trans e)
          simp [ho, this]
        · simp [ho]
  · simp only [hj, if_false, false_and]

end Sys2Proof.Machine
end

