-- ==== Sys2Proof/Laws/Engine.lean ====
section
/-! SUPPORT. The station engine's operations: one lemma each that says what the operation leaves. -/

namespace Sys2Proof.Machine

/-- Changing nothing keeps the frame of an engine's event. -/
theorem EngineFrame.refl (s : State) (i : StationId) : EngineFrame s s i :=
  ⟨⟨rfl, rfl, rfl, rfl⟩, ⟨rfl, rfl, rfl, rfl, rfl, rfl, rfl⟩, fun _ _ => rfl, rfl, rfl⟩

/-- Two operations in turn keep the frame. -/
theorem EngineFrame.trans {s t u : State} {i : StationId} (h : EngineFrame s t i)
    (k : EngineFrame t u i) : EngineFrame s u i := by
  obtain ⟨⟨a1, a2, a3, a4⟩, ⟨b1, b2, b3, b4, b5, b6, b7⟩, c, e, f⟩ := h
  obtain ⟨⟨a1', a2', a3', a4'⟩, ⟨b1', b2', b3', b4', b5', b6', b7'⟩, c', e', f'⟩ := k
  exact ⟨⟨a1'.trans a1, a2'.trans a2, a3'.trans a3, a4'.trans a4⟩,
    ⟨b1'.trans b1, b2'.trans b2, b3'.trans b3, b4'.trans b4, b5'.trans b5, b6'.trans b6,
      b7'.trans b7⟩,
    fun j hj => (c' j hj).trans (c j hj), e'.trans e, f'.trans f⟩

/-- The frame is kept beside a cleared clip state. -/
theorem EngineFrame.unclip {s t : State} {i : StationId} (h : EngineFrame s t i) :
    EngineFrame (s.unclip i) (t.unclip i) i := by
  obtain ⟨a, ⟨b1, b2, b3, b4, b5, b6, b7⟩, c, e, f⟩ := h
  exact ⟨a, ⟨b1, b2, b3, b4, congrArg (fun x : Audio => { x with clip := x.clip.set i false }) b5, b6, b7⟩,
    c, e, f⟩

/-- What keeps the allocator's frame keeps every engine's. -/
theorem AllocatorFrame.engine {s t : State} (h : AllocatorFrame s t) (i : StationId) :
    EngineFrame s t i :=
  ⟨h.1, h.2.1, fun j _ => h.2.2.1 j, h.2.2.2.2.1, h.2.2.2.2.2⟩

/-- Station i's update keeps the frame. -/
theorem engineFrame_updStation (s : State) (i : StationId) (f : Station → Station) :
    EngineFrame s (s.updStation i f) i :=
  ⟨⟨rfl, rfl, rfl, rfl⟩, ⟨rfl, rfl, rfl, rfl, rfl, rfl, rfl⟩,
    fun j hj => by unfold SameStation; rw [station_updStation_ne s i j f hj], rfl, rfl⟩

/-- The tag counter's new value keeps the frame. -/
theorem engineFrame_tagCounter (s : State) (i : StationId) (n : Nat) :
    EngineFrame s { s with tagCounter := n } i :=
  ⟨⟨rfl, rfl, rfl, rfl⟩, ⟨rfl, rfl, rfl, rfl, rfl, rfl, rfl⟩, fun _ _ => rfl, rfl, rfl⟩

/-- A report keeps the frame. -/
theorem engineFrame_report (s : State) (i : StationId) (k : FaultKind) (st : Option StationId)
    (vo : Option VoiceId) (tag : Option Nat) (d : Word) :
    EngineFrame s (report s k st vo tag d) i := (allocatorFrame_report s k st vo tag d).engine i

/-- One slot's evaluation keeps the allocator's frame. -/
theorem allocatorFrame_evalSlot (i : StationId) (tag : Nat) (s : State) (layer : LayerId) :
    AllocatorFrame s (evalSlot i tag s layer) := by
  unfold evalSlot
  split
  · exact .refl s
  · split
    · split
      · exact allocatorFrame_claimVoice s i tag layer
      all_goals exact .refl s
    · split
      · exact .refl s
      · exact (allocatorFrame_releaseVoice s _).trans (allocatorFrame_setSlot _ _ _ _ _)
      · exact (allocatorFrame_dropClaim s _ _ _).trans (allocatorFrame_setSlot _ _ _ _ _)
      · exact (allocatorFrame_dropStarved s _ _ _).trans (allocatorFrame_setSlot _ _ _ _ _)

/-- The evaluation of a note's conditions keeps the allocator's frame. -/
theorem allocatorFrame_evalConditions (s : State) (i : StationId) :
    AllocatorFrame s (evalConditions s i) := by
  unfold evalConditions
  split
  · exact AllocatorFrame.foldl _ (fun s l => allocatorFrame_evalSlot i _ s l) _ s
  · exact .refl s

/-- NOTE_OFF keeps the frame of the station's own event. -/
theorem engineFrame_noteOff (s : State) (i : StationId) : EngineFrame s (noteOff s i) i := by
  unfold noteOff
  split
  · exact ((AllocatorFrame.foldl _ (fun s x => allocatorFrame_endSlot i _ s x) _ s).engine i).trans
      (engineFrame_updStation _ i _)
  · exact .refl s i

/-- NOTE_ON keeps the frame of the station's own event. -/
theorem engineFrame_noteOn (s : State) (i : StationId) (n : Nat) (r : Bool) :
    EngineFrame s (noteOn s i n r) i :=
  ((engineFrame_tagCounter s i _).trans (engineFrame_updStation _ i _)).trans
    ((allocatorFrame_evalConditions _ i).engine i)

/-- What a resolved number does to the note keeps the frame. -/
theorem engineFrame_actOnNote (s : State) (i : StationId) (n : Nat) (r : Bool) :
    EngineFrame s (actOnNote s i n r) i := by
  unfold actOnNote
  split
  · split
    · exact engineFrame_noteOn s i n r
    · exact .refl s i
  · split
    · exact engineFrame_updStation s i _
    · split
      · exact ((engineFrame_updStation s i _).trans
          ((allocatorFrame_retune _ i).engine i)).trans ((allocatorFrame_evalConditions _ i).engine i)
      · exact (engineFrame_noteOff s i).trans (engineFrame_noteOn _ i n r)

/-- A resolution keeps the frame. -/
theorem engineFrame_resolution (s : State) (i : StationId) : EngineFrame s (resolution s i) i := by
  unfold resolution
  split
  · exact ((engineFrame_updStation s i _).trans (engineFrame_updStation _ i _)).trans
      (engineFrame_actOnNote _ i _ _)
  · exact ((engineFrame_report s i _ _ _ _ _).trans (engineFrame_updStation _ i _)).trans
      (engineFrame_updStation _ i _)

/-- The work after a resolution keeps the frame. -/
theorem engineFrame_finishWork (s : State) (i : StationId) (w : StallWork) :
    EngineFrame s (finishWork s i w) i := by
  unfold finishWork
  dsimp only
  split
  · exact ((allocatorFrame_evalConditions s i).engine i).trans (engineFrame_updStation _ i _)
  · exact (allocatorFrame_evalConditions s i).engine i

/-- A resolution made or held by a stall keeps the frame. -/
theorem engineFrame_resolveOrStall (s : State) (i : StationId) (w : StallWork) :
    EngineFrame s (resolveOrStall s i w) i := by
  unfold resolveOrStall
  split
  · exact engineFrame_updStation s i _
  · exact (engineFrame_resolution s i).trans (engineFrame_finishWork _ i w)

/-- A stalled lookup made keeps the frame. -/
theorem engineFrame_resumeStall (s : State) (i : StationId) : EngineFrame s (resumeStall s i) i := by
  unfold resumeStall
  split
  · exact ((engineFrame_updStation s i _).trans (engineFrame_resolution _ i)).trans
      (engineFrame_finishWork _ i _)
  · exact .refl s i

/-- The end of a note at the fall of GATE keeps the frame. -/
theorem engineFrame_endNote (s : State) (i : StationId) : EngineFrame s (endNote s i) i :=
  (engineFrame_noteOff s i).trans (engineFrame_updStation _ i _)

/-- A frame's keys taken keep the frame. -/
theorem engineFrame_takeKeys (s : State) (i : StationId) (c k : Word) :
    EngineFrame s (takeKeys s i c k) i := engineFrame_updStation s i _

/-- A breath computation keeps the frame. -/
theorem engineFrame_computeBreath (s : State) (i : StationId) (b l : Nat) :
    EngineFrame s (computeBreath s i b l) i := engineFrame_updStation s i _

/-- The first three steps of a frame's work keep the frame. -/
theorem engineFrame_beginFrame (s : State) (i : StationId) (c : FrameChanges) (keys : Word) :
    EngineFrame s (beginFrame s i c keys) i := by
  unfold beginFrame
  dsimp only
  refine EngineFrame.trans ?_ (engineFrame_updStation _ i _)
  refine (engineFrame_takeKeys s i c.changed (maskKeys (s.station i).keyCount keys)).trans ?_
  split
  · exact engineFrame_endNote _ i
  · exact .refl _ i

/-- A performed frame keeps the frame of its station's event. -/
theorem engineFrame_performFrame (s : State) (i : StationId) (keys : Word) (b l q : Nat) :
    EngineFrame s (performFrame s i keys b l q) i := by
  unfold performFrame
  refine (engineFrame_computeBreath s i b l).trans ?_
  unfold fingerFrame
  dsimp only
  split
  · exact (engineFrame_beginFrame _ i _ keys).trans (engineFrame_resolveOrStall _ i _)
  · exact (engineFrame_beginFrame _ i _ keys).trans (engineFrame_finishWork _ i _)

/-- Leaving LIVE keeps the frame. -/
theorem engineFrame_leaveLive (s : State) (i : StationId) (x : StationState) :
    EngineFrame s (leaveLive s i x) i := by
  unfold leaveLive putBackFingering
  exact (((engineFrame_updStation s i _).trans
    ((engineFrame_noteOff _ i).trans (engineFrame_updStation _ i _))).trans
    (engineFrame_updStation _ i _)).trans (engineFrame_updStation _ i _)

/-- A change of station state keeps the frame. -/
theorem engineFrame_enterState (s : State) (i : StationId) (x : StationState) :
    EngineFrame s (enterState s i x) i := by
  unfold enterState
  dsimp only
  refine EngineFrame.trans ?_ (engineFrame_updStation _ i _)
  split
  · exact engineFrame_leaveLive s i x
  · exact .refl s i

/-- Becoming SYNCED keeps the frame. -/
theorem engineFrame_becomeSynced (s : State) (i : StationId) :
    EngineFrame s (becomeSynced s i) i :=
  (engineFrame_enterState s i .synced).trans (engineFrame_updStation _ i _)

/-- A SYNC taken keeps the frame. -/
theorem engineFrame_takeSync (s : State) (i : StationId) : EngineFrame s (takeSync s i) i :=
  (engineFrame_updStation s i _).trans (engineFrame_becomeSynced _ i)

/-- A protocol fault keeps the frame. -/
theorem engineFrame_protocolFault (s : State) (i : StationId) (c : Nat) (ch : Byte) (g : Nat) :
    EngineFrame s (protocolFault s i c ch g) i :=
  (engineFrame_updStation s i _).trans (engineFrame_report _ i _ _ _ _ _)

/-- What a HELLO stores keeps the frame. -/
theorem engineFrame_storeHello (s : State) (i : StationId) (a b c : Nat) :
    EngineFrame s (storeHello s i a b c) i := engineFrame_updStation s i _

/-- A HELLO taken keeps the frame. -/
theorem engineFrame_takeHello (s : State) (i : StationId) (a b c q : Nat) :
    EngineFrame s (takeHello s i a b c q) i := by
  unfold takeHello
  dsimp only
  refine EngineFrame.trans ?_ (engineFrame_updStation _ i _)
  refine ((engineFrame_storeHello s i a b c).trans (engineFrame_enterState _ i .calibrating)).trans ?_
  split
  · exact engineFrame_updStation _ i _
  · exact .refl _ i

/-- A PLAY taken keeps the frame. -/
theorem engineFrame_takePlay (s : State) (i : StationId) (keys : Word) (b l q : Nat) :
    EngineFrame s (takePlay s i keys b l q) i := by
  unfold takePlay
  split
  · exact .refl s i
  · exact .refl s i
  · exact engineFrame_protocolFault s i _ _ _
  · exact (engineFrame_updStation s i _).trans (engineFrame_updStation _ i _)
  · exact engineFrame_performFrame s i keys b l q
  · exact ((engineFrame_updStation s i _).trans (engineFrame_updStation _ i _)).trans
      (engineFrame_performFrame _ i keys b l q)

/-- A HUSH taken keeps the frame. -/
theorem engineFrame_takeHush (s : State) (i : StationId) : EngineFrame s (takeHush s i) i := by
  unfold takeHush
  split
  · unfold hushFingering
    exact ((engineFrame_noteOff s i).trans (engineFrame_updStation _ i _)).trans
      (engineFrame_updStation _ i _)
  · exact .refl s i

/-- A silence expiry taken keeps the frame. -/
theorem engineFrame_takeSilence (s : State) (i : StationId) :
    EngineFrame s (takeSilence s i) i := by
  unfold takeSilence
  split
  · exact ((engineFrame_leaveLive s i .lost).trans (engineFrame_updStation _ i _)).trans
      (engineFrame_report _ i _ _ _ _ _)
  · exact (engineFrame_becomeSynced s i).trans (engineFrame_report _ i _ _ _ _ _)
  all_goals exact .refl s i

/-- A restart keeps the frame. -/
theorem engineFrame_restartStation (s : State) (i : StationId) :
    EngineFrame s (restartStation s i) i := by
  unfold restartStation
  split
  · exact .refl s i
  · exact .refl s i
  · exact engineFrame_updStation s i _
  all_goals exact (engineFrame_becomeSynced s i).trans (engineFrame_updStation _ i _)

/-- A disable, but for the clip state, keeps the frame. -/
theorem engineFrame_disableStation (s : State) (i : StationId) :
    EngineFrame (s.unclip i) (disableStation s i) i :=
  ((engineFrame_enterState s i .disabled).trans (engineFrame_updStation _ i _)).unclip

/-- The settings of one station stored and acting keep the frame, but for the clip state where they disable the
station. -/
theorem engineFrame_applySettings (s : State) (i : StationId) (new : Settings) :
    EngineFrame
      (if (s.station i).settings.enable = true ∧ new.enable = false then s.unclip i else s)
      (applySettings s i new) i := by
  have h1 : ∀ (s : State) (f : Station → Station) (old : Settings),
      EngineFrame
        (if old.enable = true ∧ (f (s.station i)).settings.enable = false then s.unclip i else s)
        (actOnEnable (s.updStation i f) i old) i := fun s f old => by
    unfold actOnEnable
    rw [station_updStation_self]
    cases old.enable <;> cases (f (s.station i)).settings.enable
    · exact engineFrame_updStation s i f
    · exact (engineFrame_updStation s i f).trans (engineFrame_updStation _ i _)
    · exact (engineFrame_updStation s i f).unclip.trans (engineFrame_disableStation _ i)
    · exact engineFrame_updStation s i f
  have h2 : ∀ s, EngineFrame s (actOnStall s i) i := fun s => by
    unfold actOnStall
    split
    · exact .refl s i
    · exact engineFrame_resumeStall s i
  have h3 : ∀ s old, EngineFrame s (actOnCap s i old) i := fun s old => by
    unfold actOnCap
    split
    · exact (allocatorFrame_lowerToCap s i).engine i
    · exact .refl s i
  have h4 : ∀ s old new, EngineFrame s (actOnPool s old new) i := fun s old new => by
    unfold actOnPool
    split
    · exact .refl s i
    · exact (allocatorFrame_serveStarved s).engine i
  unfold applySettings
  exact (((h1 s _ _).trans (engineFrame_updStation _ i _)).trans (h2 _)).trans
    ((h3 _ _).trans (h4 _ _ _))

/-! ### The link receiver -/

/-- A frame accepted keeps the frame. -/
theorem engineFrame_acceptFrame (s : State) (i : StationId) (f : Frame) (m : Nat) :
    EngineFrame s (acceptFrame s i f m) i := by
  unfold acceptFrame
  dsimp only
  split
  · exact (engineFrame_updStation s i _).trans (engineFrame_updStation _ i _)
  · exact engineFrame_updStation s i _

/-- A complete frame keeps the frame. -/
theorem engineFrame_completeFrame (s : State) (i : StationId) (a : FrameAssembly) :
    EngineFrame s (completeFrame s i a) i := by
  unfold completeFrame
  split
  · unfold windowFrame
    split
    · exact engineFrame_updStation s i _
    · split
      · exact engineFrame_acceptFrame s i _ _
      · exact engineFrame_report s i _ _ _ _ _
  · exact (engineFrame_updStation s i _).trans (engineFrame_report _ i _ _ _ _ _)

/-- An incomplete frame dropped keeps the frame. -/
theorem engineFrame_dropIncomplete (s : State) (i : StationId) :
    EngineFrame s (dropIncomplete s i) i := by
  unfold dropIncomplete
  split
  · exact .refl s i
  · exact (engineFrame_updStation s i _).trans (engineFrame_protocolFault _ i _ _ _)

/-- A complete character keeps the frame. -/
theorem engineFrame_takeCharacter (s : State) (i : StationId) (d : Byte) (m : Bool) :
    EngineFrame s (takeCharacter s i d m) i := by
  unfold takeCharacter
  split
  · split
    · exact .refl s i
    · refine (engineFrame_dropIncomplete s i).trans ?_
      unfold beginAssembly
      split
      · exact engineFrame_updStation _ i _
      · exact engineFrame_protocolFault _ i _ _ _
  · unfold takeData
    split
    · exact engineFrame_protocolFault s i _ _ _
    · dsimp only
      split
      · exact (engineFrame_updStation s i _).trans (engineFrame_completeFrame _ i _)
      · exact engineFrame_updStation s i _

/-- A framing error keeps the frame. -/
theorem engineFrame_framingError (s : State) (i : StationId) (d : Byte) (m : Bool) :
    EngineFrame s (framingError s i d m) i :=
  ((engineFrame_updStation s i _).trans (engineFrame_updStation _ i _)).trans
    (engineFrame_report _ i _ _ _ _ _)

/-- A SYNC handed over keeps the frame. -/
theorem engineFrame_handSync (s : State) (i : StationId) : EngineFrame s (handSync s i) i := by
  unfold handSync
  split
  · exact engineFrame_takeSync s i
  · exact engineFrame_updStation s i _

end Sys2Proof.Machine
end

