-- ==== Sys2Proof/Laws/Lifecycle.lean ====
section
/-! SUPPORT. What ending a note and leaving LIVE make of a station, and two updates of one station in turn. -/

namespace Sys2Proof.Machine

/-- Two updates of a station make one. -/
theorem updStation_updStation (s : State) (i : StationId) (f g : Station → Station) :
    (s.updStation i f).updStation i g = s.updStation i (fun x => g (f x)) := by
  simp [State.updStation]

/-- Two updates of a voice make one. -/
theorem updVoice_updVoice (s : State) (v : VoiceId) (f g : Voice → Voice) :
    (s.updVoice v f).updVoice v g = s.updVoice v (fun x => g (f x)) := by
  simp [State.updVoice]

/-- An update that writes what stands there changes nothing. -/
theorem updStation_id (s : State) (i : StationId) (f : Station → Station)
    (h : f (s.station i) = s.station i) : s.updStation i f = s := by
  unfold State.updStation State.station at *
  rw [h]
  simp

/-- A station whose note is absent and which is the same but for its slots is the same. -/
theorem station_eq_of_sameStation {s t : State} {i : StationId} (h : SameStation s t i)
    (hn : (s.station i).fingering.note = none) : t.station i = s.station i := by
  unfold SameStation Station.unslotted at h
  rw [hn] at h
  have hf := congrArg Station.fingering h
  have h1 := congrArg Station.state h
  have h2 := congrArg Station.settings h
  have h3 := congrArg Station.keySense h
  have h4 := congrArg Station.breath h
  have h5 := congrArg Station.cls h
  have h6 := congrArg Station.keyCount h
  have h7 := congrArg Station.calib h
  have h8 := congrArg Station.restarts h
  have h9 := congrArg Station.stall h
  have h10 := congrArg Station.syncHanded h
  have h11 := congrArg Station.link h
  have k1 := congrArg Fingering.note hf
  have k2 := congrArg Fingering.snapshot hf
  have k3 := congrArg Fingering.changed hf
  have k4 := congrArg Fingering.settle hf
  have k5 := congrArg Fingering.onsetPending hf
  have k6 := congrArg Fingering.current hf
  have k7 := congrArg Fingering.misses hf
  revert hn h1 h2 h3 h4 h5 h6 h7 h8 h9 h10 h11 k1 k2 k3 k4 k5 k6 k7
  clear h hf
  generalize s.station i = x
  generalize t.station i = y
  obtain ⟨_, _, _, _, ⟨_, _, _, _, _, _, _⟩, _, _, _, _, _, _, _⟩ := x
  obtain ⟨_, _, _, _, ⟨_, _, _, _, _, n, _⟩, _, _, _, _, _, _, _⟩ := y
  cases n <;> (intros; simp_all)

/-- The note's end leaves a station with no note and nothing else changed. -/
theorem noteOff_station (s : State) (i : StationId) :
    (noteOff s i).station i =
      { s.station i with fingering := { (s.station i).fingering with note := none } } := by
  unfold noteOff State.note
  split
  · next n h =>
    rw [updFingering_eq, station_updStation_self]
    have hf := AllocatorFrame.foldl _ (fun s x => allocatorFrame_endSlot i n.tag s x) n.slots s
    have h2 := hf.2.2.1 i
    have h3 : SameStation
        (s.updFingering i fun g => { g with note := none })
        ((n.slots.foldl (endSlot i n.tag) s).updFingering i fun g => { g with note := none }) i := by
      unfold SameStation Station.unslotted at h2 ⊢
      simp only [updFingering_eq, station_updStation_self, Option.map_none]
      have := congrArg (fun x : Station =>
        { x with fingering := { x.fingering with note := none } }) h2
      exact this
    have h4 := station_eq_of_sameStation h3 (by simp [updFingering_eq])
    simpa only [updFingering_eq, station_updStation_self] using h4
  · next h =>
    have : { s.station i with fingering := { (s.station i).fingering with note := none } } =
        s.station i := by rw [← h]
    exact this.symm

/-- Leaving LIVE puts breath state and fingering unit at rest and drops the held work. -/
theorem leaveLive_station (s : State) (i : StationId) (x : StationState) :
    (leaveLive s i x).station i =
      { s.station i with
        state := x
        stall := none
        breath := (s.station i).breath.atRest
        fingering := (s.station i).fingering.atRest } := by
  simp only [leaveLive, clearBreath, putBackFingering, updBreath_eq, updFingering_eq,
    station_updStation_self, noteOff_station]
  rfl

/-- A change of state from a station at rest where it must be leaves it at rest, its calibration
discarded. -/
theorem enterState_station (s : State) (i : StationId) (x : StationState)
    (h : (s.station i).restOk) :
    (enterState s i x).station i =
      { s.station i with
        state := x
        stall := none
        breath := (s.station i).breath.atRest
        fingering := (s.station i).fingering.atRest
        calib := Calibration.fresh } := by
  simp only [enterState, station_updStation_self]
  split
  · rw [leaveLive_station]
  · next h' =>
    obtain ⟨h1, h2, h3⟩ := h h'
    rw [← h1, ← h2, ← h3]

/-- A note's end takes no fault. -/
theorem noteOff_faults (s : State) (i : StationId) : (noteOff s i).faults = s.faults := by
  unfold noteOff
  split
  · have h : ∀ (l : List Slot) (s : State) (tag : Nat),
        (l.foldl (endSlot i tag) s).faults = s.faults := by
      intro l
      induction l with
      | nil => intros; rfl
      | cons x xs ih =>
        intro s tag
        rw [List.foldl_cons, ih]
        unfold endSlot
        split <;> rfl
    rw [updFingering_eq, faults_updStation, h]
  · rfl

/-- Leaving LIVE takes no fault. -/
theorem leaveLive_faults (s : State) (i : StationId) (x : StationState) :
    (leaveLive s i x).faults = s.faults := by
  simp [leaveLive, clearBreath, putBackFingering, updBreath_eq, updFingering_eq, noteOff_faults]

/-- A change of state takes no fault. -/
theorem enterState_faults (s : State) (i : StationId) (x : StationState) :
    (enterState s i x).faults = s.faults := by
  simp only [enterState, faults_updStation]
  split <;> simp [leaveLive_faults]

/-! ### The pool when a station's note ends (R58, R59, R99) -/

/-- The pool is the same as itself. -/
theorem SamePool.refl (s : State) : SamePool s s := ⟨rfl, rfl, rfl, rfl, rfl⟩

/-- The pool stays the same over two operations in turn. -/
theorem SamePool.trans {s t u : State} (h : SamePool s t) (k : SamePool t u) : SamePool s u :=
  ⟨k.1.trans h.1, k.2.1.trans h.2.1, k.2.2.1.trans h.2.2.1, k.2.2.2.1.trans h.2.2.2.1,
    k.2.2.2.2.trans h.2.2.2.2⟩

/-- A station's update leaves the pool. -/
theorem samePool_updStation (s : State) (i : StationId) (f : Station → Station) :
    SamePool s (s.updStation i f) := ⟨rfl, rfl, rfl, rfl, rfl⟩

/-- A station's update before or after the end of a note's slots is the same. -/
theorem foldl_endSlot_updStation (l : List Slot) (i j : StationId) (tag : Nat)
    (f : Station → Station) (s : State) :
    l.foldl (endSlot j tag) (s.updStation i f) = (l.foldl (endSlot j tag) s).updStation i f := by
  induction l generalizing s with
  | nil => rfl
  | cons a l ih =>
    have : endSlot j tag (s.updStation i f) a = (endSlot j tag s a).updStation i f := by
      unfold endSlot; cases a.state <;> rfl
    rw [List.foldl_cons, this, ih, List.foldl_cons]

/-- NOTE_OFF leaves the same pool after an update of the station that keeps its note. -/
theorem samePool_noteOff_updStation (s : State) (i : StationId) (f : Station → Station)
    (h : (f (s.station i)).fingering.note = (s.station i).fingering.note) :
    SamePool (noteOff s i) (noteOff (s.updStation i f) i) := by
  unfold noteOff State.note
  rw [station_updStation_self, h]
  cases (s.station i).fingering.note with
  | none => exact samePool_updStation s i f
  | some n =>
    dsimp only
    rw [foldl_endSlot_updStation]
    exact ⟨rfl, rfl, rfl, rfl, rfl⟩

/-- NOTE_OFF leaves the other stations as they were. -/
theorem station_noteOff_ne (s : State) (i j : StationId) (h : j ≠ i) :
    (noteOff s i).station j = s.station j := by
  have fold : ∀ (l : List Slot) (tag : Nat) (s : State),
      (l.foldl (endSlot i tag) s).stations = s.stations := by
    intro l tag
    induction l with
    | nil => intro s; rfl
    | cons a l ih =>
      intro s
      rw [List.foldl_cons, ih]
      unfold endSlot
      cases a.state <;> rfl
  unfold noteOff
  split
  · rw [updFingering_eq, station_updStation_ne _ _ _ _ h]
    unfold State.station
    rw [fold]
  · rfl

/-- NOTE_OFF ends the station's note. -/
theorem noteEnds_noteOff (s : State) (i : StationId) : NoteEnds s (noteOff s i) i :=
  ⟨SamePool.refl _, fun j hj => station_noteOff_ne s i j hj⟩

/-- A note that is not there ends with nothing changed. -/
theorem noteEnds_of_none {s : State} {i : StationId} (h : s.note i = none) : NoteEnds s s i := by
  have := noteEnds_noteOff s i
  unfold noteOff at this
  rw [h] at this
  exact this

/-- An update of the station after its note's end changes nothing of the end. -/
theorem NoteEnds.updStation {s t : State} {i : StationId} (h : NoteEnds s t i)
    (f : Station → Station) : NoteEnds s (t.updStation i f) i :=
  ⟨h.1.trans (samePool_updStation _ _ _), fun j hj => by
    rw [station_updStation_ne _ _ _ _ hj]; exact h.2 j hj⟩

/-- An update of the station that keeps its note, before its end, changes nothing of the end. -/
theorem NoteEnds.of_updStation {s t : State} {i : StationId} {f : Station → Station}
    (hf : (f (s.station i)).fingering.note = (s.station i).fingering.note)
    (h : NoteEnds (s.updStation i f) t i) : NoteEnds s t i :=
  ⟨(samePool_noteOff_updStation s i f hf).trans h.1, fun j hj => by
    rw [h.2 j hj, station_updStation_ne _ _ _ _ hj]⟩

/-- Leaving LIVE ends the note. -/
theorem noteEnds_leaveLive (s : State) (i : StationId) (x : StationState) :
    NoteEnds s (leaveLive s i x) i := by
  unfold leaveLive
  refine NoteEnds.of_updStation (f := fun st => { st with stall := none }) rfl ?_
  simp only [clearBreath, updBreath_eq, putBackFingering, updFingering_eq]
  exact (((noteEnds_noteOff _ i).updStation _).updStation _).updStation _

/-- A change of state from a station at rest where it must be ends the note. -/
theorem noteEnds_enterState (s : State) (i : StationId) (x : StationState)
    (h : (s.station i).restOk) : NoteEnds s (enterState s i x) i := by
  unfold enterState
  dsimp only
  refine NoteEnds.updStation ?_ _
  split
  · exact noteEnds_leaveLive s i x
  · next hl =>
    refine noteEnds_of_none ?_
    unfold State.note
    rw [(h hl).2.1]
    rfl

/-- A reply as formed is the one the rules ask for. -/
theorem isReply_replyOf (x : Station) (seq : Nat) : IsReply (replyOf x seq) x seq := by
  refine ⟨rfl, rfl, ?_, ?_⟩
  · simp only [replyOf, statusChar, bitAt, BitVec.toNat_ofNat]
    cases x.state <;> cases x.breath.ind.gate <;> cases x.breath.ind.excess <;>
      cases x.breath.ind.clip <;> cases x.breath.ind.bend <;> cases x.breath.ind.raised <;> rfl
  · exact BitVec.add_right_neg _

end Sys2Proof.Machine
end

