-- ==== Sys2Proof/Laws/Links.lean ====
section
/-! SUPPORT. The line of the reply transmitter: how many bit times a character and a reply take; and what the
receiver makes of its line, period by period. -/

namespace Sys2Proof.Machine

/-- A character takes eleven bit times (R141). -/
theorem length_characterBits (d : Byte) (mark : Bool) : (characterBits d mark).length = 11 := by
  simp [characterBits]

/-- A reply takes 44 bit times, and one cut short those of the characters up to its position (R136, R152). -/
theorem length_bits (x : Sending) :
    x.bits.length = if x.cut then 11 * min 4 (x.position + 1) else 44 := by
  obtain ⟨r, p, e, T, cut⟩ := x
  cases cut
  · rfl
  · rcases p with _ | _ | _ | p
    · rfl
    · rfl
    · rfl
    · simp only [Sending.bits, if_true]
      rw [List.take_of_length_le (l := r.characters) (by simp [Reply.characters])]
      simp [Reply.characters, length_characterBits]

/-- With nothing being sent the line carries no bits of a reply. -/
theorem ltx_of_none {s : State} {i : StationId} (h : (s.station i).link.sending = none) :
    s.ltx i = [] := by
  unfold State.ltx
  split <;> simp [h]

/-- Time passes for a transmission's place only. -/
@[simp] theorem reply_pass (n : Nat) (x : Sending) : (x.pass n).reply = x.reply := by
  unfold Sending.pass; split <;> rfl

@[simp] theorem bitTime_pass (n : Nat) (x : Sending) : (x.pass n).bitTime = x.bitTime := by
  unfold Sending.pass; split <;> rfl

@[simp] theorem cut_pass (n : Nat) (x : Sending) : (x.pass n).cut = x.cut := by
  unfold Sending.pass; split <;> rfl

/-- The character in transmission stays one of the four. -/
theorem position_pass_lt {x : Sending} (h : x.position < 4) (n : Nat) : (x.pass n).position < 4 := by
  unfold Sending.pass
  split
  · exact h
  · dsimp only
    split <;> omega

/-- A character in transmission has begun at most eleven bit times ago. -/
theorem elapsed_pass_le {x : Sending} {T : Nat} (h : x.bitTime = some T) (n : Nat) :
    (x.pass n).elapsed ≤ 11 * T := by
  simp only [Sending.pass, h]
  exact Nat.min_le_left _ _

/-- Eleven bit times are full only for the last character that is sent. -/
theorem last_of_elapsed_pass {x : Sending} {T : Nat} (h : x.bitTime = some T) (hT : 0 < T)
    (hp : x.position < 4) {n : Nat} (full : (x.pass n).elapsed = 11 * T) :
    x.cut = true ∨ (x.pass n).position = 3 := by
  cases hc : x.cut with
  | true => exact .inl rfl
  | false =>
    right
    simp only [Sending.pass, h, hc] at full ⊢
    have hmod := Nat.mod_lt (x.elapsed + n) (show 0 < 11 * T by omega)
    have hdiv := Nat.div_add_mod (x.elapsed + n) (11 * T)
    rw [Nat.mul_comm] at hdiv
    by_cases hq : (x.elapsed + n) / (11 * T) ≤ 3 - x.position
    · simp only [Bool.false_eq_true, if_false, Nat.min_eq_right hq] at full
      omega
    · simp only [Bool.false_eq_true, if_false, Nat.min_eq_left (Nat.le_of_not_le hq)]
      omega

/-- Of a reply that ends after the character in transmission, no other begins. -/
theorem position_pass_of_cut {x : Sending} (h : x.cut = true) (n : Nat) : (x.pass n).position = x.position := by
  unfold Sending.pass
  split
  · rfl
  · simp [h]

/-- At most c spans of length L, and what is over of the next, at most L: in two parts as in one. -/
theorem spans_add (c L e n : Nat) :
    let k := min c (e / L)
    let rest := min L (e - k * L)
    k + min (c - k) ((rest + n) / L) = min c ((e + n) / L)
      ∧ min L (rest + n - min (c - k) ((rest + n) / L) * L) = min L (e + n - min c ((e + n) / L) * L) := by
  intro k rest
  rcases Nat.eq_zero_or_pos L with rfl | hL
  · simp [k]
  have whole : e = e / L * L + e % L := by
    rw [Nat.mul_comm]
    exact (Nat.div_add_mod e L).symm
  have less : e % L < L := Nat.mod_lt _ hL
  by_cases h : e / L ≤ c
  · have hk : k = e / L := Nat.min_eq_right h
    have ho : rest = e % L := by
      have : e - e / L * L = e % L := by omega
      simp only [rest, hk, this]
      exact Nat.min_eq_right (Nat.le_of_lt less)
    have hq : (e + n) / L = e / L + (e % L + n) / L := by
      conv => lhs; rw [whole]
      rw [Nat.add_assoc, Nat.add_comm, Nat.add_mul_div_right _ _ hL, Nat.add_comm]
    rw [hk, ho, hq]
    have hm : min c (e / L + (e % L + n) / L) = e / L + min (c - e / L) ((e % L + n) / L) := by omega
    refine ⟨hm.symm, ?_⟩
    rw [hm, Nat.add_mul]
    congr 1
    omega
  · have hk : k = c := Nat.min_eq_left (by omega)
    have full : (c + 1) * L ≤ e / L * L := Nat.mul_le_mul_right L (by omega)
    rw [Nat.succ_mul] at full
    have ho : rest = L := by
      simp only [rest, hk]
      omega
    have hq : c ≤ (e + n) / L := (Nat.le_div_iff_mul_le hL).2 (by omega)
    rw [hk, ho, Nat.min_eq_left hq, Nat.sub_self, Nat.zero_min, Nat.zero_mul]
    refine ⟨rfl, ?_⟩
    omega

/-- Two spans of time in turn are the whole span at once. -/
theorem pass_pass (m n : Nat) (x : Sending) : (x.pass m).pass n = x.pass (m + n) := by
  obtain ⟨r, p, e, T, cut⟩ := x
  cases T with
  | none => rfl
  | some T =>
    obtain ⟨hk, ho⟩ := spans_add (if cut then 0 else 3 - p) (11 * T) (e + m) n
    have hc : ∀ k, (if cut then 0 else 3 - (p + k)) = (if cut then 0 else 3 - p) - k := by
      intro k
      split <;> omega
    rw [Nat.add_assoc e m n] at hk ho
    simp only [Sending.pass, hc, Nat.add_assoc p, hk, ho]

/-- A receiver within its ranges stays so as time goes by for its transmitter. -/
theorem inRange_pass {l : Link} (h : l.inRange) (n : Nat) :
    { l with sending := l.sending.map (Sending.pass n) }.inRange := by
  obtain ⟨h1, h2, h3, h4, h5, h6, h7, h8⟩ := h
  refine ⟨h1, h2, h3, h4, h5, h6, fun y hy => ?_, h8⟩
  obtain ⟨x, hx, rfl⟩ := Option.map_eq_some_iff.1 hy
  obtain ⟨hp, ht⟩ := h7 x hx
  refine ⟨position_pass_lt hp n, fun T hT => ?_⟩
  rw [bitTime_pass] at hT
  obtain ⟨⟨low, high⟩, -, -⟩ := ht T hT
  refine ⟨⟨low, high⟩, elapsed_pass_le hT n, fun full => ?_⟩
  rw [cut_pass]
  exact last_of_elapsed_pass hT (by omega) hp full

/-! ### The receiver (R141) -/

/-- The line resting at 1 begins nothing. -/
theorem hear_absent_true (T : Nat) : CharacterAssembly.absent.hear T true = (.absent, none) := rfl

/-- A level of 0 with the line resting begins a character. -/
theorem hear_absent_false (T : Nat) : CharacterAssembly.absent.hear T false = (.assembling 0 [], none) := rfl

/-- Between two samples a character in assembly only grows older. -/
theorem hear_between {T e : Nat} {bits : List Bool} (h : e + 1 ≠ bits.length * T + T / 2) (level : Bool) :
    (CharacterAssembly.assembling e bits).hear T level = (.assembling (e + 1) bits, none) := by
  simp [CharacterAssembly.hear, h]

/-- At the middle of a bit the line is sampled. -/
theorem hear_sample {T e : Nat} {bits : List Bool} (h : e + 1 = bits.length * T + T / 2) (level : Bool) :
    (CharacterAssembly.assembling e bits).hear T level =
      CharacterAssembly.sampled (e + 1) (bits ++ [level]) := by
  simp [CharacterAssembly.hear, h]

/-- Waiting for a 1, the line at 0 completes nothing and ends nothing. -/
theorem hear_heldLow_false (T e : Nat) :
    (CharacterAssembly.heldLow e).hear T false =
      (.heldLow (if e + 1 = T then 0 else e + 1), none) := by
  by_cases h : e + 1 = T <;> simp [CharacterAssembly.hear, h]

/-- The character in assembly replaced, and replaced again. -/
@[simp] theorem setCharacter_setCharacter (s : State) (i : StationId) (a b : CharacterAssembly) :
    setCharacter (setCharacter s i a) i b = setCharacter s i b := by
  simp [setCharacter, State.updLink, State.updStation, Vector.set_set]

/-- The character in assembly of a station after it has been replaced. -/
@[simp] theorem character_setCharacter (s : State) (i : StationId) (a : CharacterAssembly) :
    ((setCharacter s i a).station i).link.character = a := by
  simp [setCharacter, State.updLink, State.updStation, State.station]

/-- A character in assembly replaced by itself. -/
theorem setCharacter_self {s : State} {i : StationId} {a : CharacterAssembly}
    (h : (s.station i).link.character = a) : setCharacter s i a = s := by
  subst h
  simp only [setCharacter, State.updLink, State.updStation, State.station]
  have : s.stations.set i s.stations[i] = s.stations := by
    ext j hj
    simp only [Fin.getElem_fin, Vector.getElem_set]
    split <;> simp_all
  show ({ s with stations := s.stations.set i s.stations[i] } : State) = s
  rw [this]

/-- What the receiver hears depends on the character it is given, not on the one the state holds. -/
theorem hearLevels_setCharacter (i : StationId) (T : Nat) (c a : CharacterAssembly) (s : State)
    (levels : List Bool) :
    hearLevels i T c (setCharacter s i a) levels = hearLevels i T c s levels := by
  induction levels generalizing c with
  | nil => simp [hearLevels]
  | cons x xs ih =>
    rw [hearLevels, hearLevels]
    split
    · exact ih _
    · simp

/-- A level in which no character completes changes the character in assembly and nothing else. -/
theorem hearLevels_cons {i : StationId} {T : Nat} {a b : CharacterAssembly} {level : Bool}
    (h : a.hear T level = (b, none)) (s : State) (levels : List Bool) :
    hearLevels i T a s (level :: levels) = hearLevels i T b s levels := by
  rw [hearLevels, h]

/-- A level in which a character completes. -/
theorem hearLevels_cons_some {i : StationId} {T : Nat} {a b : CharacterAssembly} {level : Bool}
    {bits : List Bool} (h : a.hear T level = (b, some bits)) (s : State) (levels : List Bool) :
    hearLevels i T a s (level :: levels) =
      hearLevels i T b (endCharacter (setCharacter s i b) i bits) levels := by
  rw [hearLevels, h]

/-- Heard in two pieces, the line is heard as in one. -/
theorem hearLevels_append (i : StationId) (T : Nat) (c : CharacterAssembly) (s : State)
    (before after : List Bool) :
    hearLevels i T c s (before ++ after) =
      hearLevels i T ((hearLevels i T c s before).station i).link.character (hearLevels i T c s before)
        after := by
  induction before generalizing c s with
  | nil => simp [hearLevels, hearLevels_setCharacter]
  | cons x xs ih =>
    rw [List.cons_append, hearLevels, hearLevels]
    split <;> exact ih _ _

/-- Bits that are the levels at the middles of the bit times are as many as the middles reached. -/
theorem sampled_iff {bits levels : List Bool} {T : Nat} (h : ∀ n, bits[n]? = levels[n * T + T / 2]?)
    (n : Nat) : n < bits.length ↔ n * T + T / 2 < levels.length := by
  constructor
  · intro hn
    have hm := h n
    rw [List.getElem?_eq_getElem hn] at hm
    exact (List.getElem?_eq_some_iff.1 hm.symm).1
  · intro hn
    have hm := h n
    rw [List.getElem?_eq_getElem hn] at hm
    exact (List.getElem?_eq_some_iff.1 hm).1

/-- From a resting line on, up to the middle of a stop bit: the character in assembly has the age of the levels
heard and the bits at the middles of the bit times that they reach. -/
theorem hear_prefix {s : State} {i : StationId} {T : Nat} (hT : 2 ≤ T) (levels : List Bool)
    (edge : levels[0]? = some false) (start : levels[T / 2]? ≠ some true)
    (short : levels.length ≤ 10 * T + T / 2) :
    ∃ bits : List Bool, (∀ n, bits[n]? = levels[n * T + T / 2]?)
      ∧ ∀ rest : List Bool, hearLevels i T .absent s (levels ++ rest) =
        hearLevels i T (.assembling (levels.length - 1) bits) s rest := by
  obtain ⟨n, hn⟩ : ∃ n, n = levels.length := ⟨_, rfl⟩
  induction n generalizing levels with
  | zero =>
    rw [List.eq_nil_of_length_eq_zero hn.symm] at edge
    cases edge
  | succ n ih =>
    rcases List.eq_nil_or_concat levels with rfl | ⟨before, x, rfl⟩
    · cases edge
    rw [List.concat_eq_append] at *
    simp only [List.length_append, List.length_singleton] at hn short ⊢
    by_cases hb : before = []
    · subst hb
      simp at edge
      subst edge
      refine ⟨[], fun n => ?_, fun rest => hearLevels_cons rfl _ _⟩
      have : 1 ≤ n * T + T / 2 := by
        have : 1 ≤ T / 2 := (Nat.le_div_iff_mul_le (by decide)).2 (by omega)
        omega
      simp [List.getElem?_eq_none_iff.2 (show [false].length ≤ n * T + T / 2 from this)]
    · have hpos : 0 < before.length := List.length_pos_iff.2 hb
      have edge' : before[0]? = some false := by
        rwa [List.getElem?_append_left hpos] at edge
      have start' : before[T / 2]? ≠ some true := by
        intro h
        have hlt : T / 2 < before.length := (List.getElem?_eq_some_iff.1 h).1
        rw [List.getElem?_append_left hlt] at start
        exact start h
      obtain ⟨bits, hbits, hfold⟩ := ih before edge' start' (by omega) (by omega)
      have reach : ∀ m, m < bits.length ↔ m * T + T / 2 < before.length := sampled_iff hbits
      have hmul : ∀ a b : Nat, a < b → a * T + T ≤ b * T := fun a b h => by
        have := Nat.mul_le_mul_right T (Nat.succ_le_of_lt h)
        rwa [Nat.succ_mul] at this
      by_cases hs : before.length = bits.length * T + T / 2
      · refine ⟨bits ++ [x], fun m => ?_, ?_⟩
        · rcases Nat.lt_trichotomy m bits.length with h | h | h
          · rw [List.getElem?_append_left h, List.getElem?_append_left ((reach m).1 h), hbits]
          · subst h
            rw [← hs]
            simp
          · have := hmul _ _ h
            rw [List.getElem?_eq_none_iff.2 (by simp; omega),
              List.getElem?_eq_none_iff.2 (by simp; omega)]
        · intro rest
          rw [List.append_assoc, List.singleton_append, hfold]
          refine hearLevels_cons ?_ _ _
          rw [hear_sample (by omega), CharacterAssembly.sampled]
          have h1 : bits ++ [x] ≠ [true] := by
            intro h
            have hlen := congrArg List.length h
            simp at hlen
            subst hlen
            simp at h hs
            subst h
            rw [← hs] at start
            simp at start
          have h2 : (bits ++ [x]).length ≠ 11 := by
            simp only [List.length_append, List.length_singleton]
            intro h
            have h10 : bits.length = 10 := by omega
            rw [h10] at hs
            omega
          rw [if_neg h1, if_neg h2]
          congr 2
          omega
      · have hlt : before.length < bits.length * T + T / 2 := by
          have : ¬ bits.length * T + T / 2 < before.length := fun h => Nat.lt_irrefl _ ((reach _).2 h)
          omega
        refine ⟨bits, fun m => ?_, ?_⟩
        · by_cases h : m < bits.length
          · rw [List.getElem?_append_left ((reach m).1 h), hbits]
          · have hle : bits.length * T ≤ m * T := Nat.mul_le_mul_right T (Nat.le_of_not_lt h)
            rw [List.getElem?_eq_none_iff.2 (Nat.le_of_not_lt h),
              List.getElem?_eq_none_iff.2 (by simp; omega)]
        · intro rest
          rw [List.append_assoc, List.singleton_append, hfold]
          refine hearLevels_cons ?_ _ _
          rw [hear_between (by omega)]
          congr 2
          omega

/-- The levels of a whole character from a resting line on: its eleven bits are sampled at the middles of the bit
times, and the character ends with the last of them. -/
theorem hear_character {s : State} {i : StationId} {T : Nat} (hT : 2 ≤ T) {levels : List Bool}
    (whole : levels.length = 10 * T + T / 2 + 1) (edge : levels[0]? = some false)
    (start : levels[T / 2]? = some false) :
    ∃ bits : List Bool, bits.length = 11 ∧ (∀ n, bits[n]? = levels[n * T + T / 2]?)
      ∧ ∀ rest : List Bool, hearLevels i T .absent s (levels ++ rest) =
        hearLevels i T (if bits.getD 10 true then .absent else .heldLow 0)
          (endCharacter (setCharacter s i (if bits.getD 10 true then .absent else .heldLow 0)) i bits)
          rest := by
  rcases List.eq_nil_or_concat levels with rfl | ⟨before, x, rfl⟩
  · cases edge
  rw [List.concat_eq_append] at *
  simp only [List.length_append, List.length_singleton, Nat.add_right_cancel_iff] at whole
  have h0 : T / 2 < before.length := by omega
  rw [List.getElem?_append_left (by omega)] at edge
  rw [List.getElem?_append_left h0] at start
  obtain ⟨bits, hbits, hfold⟩ := hear_prefix (s := s) (i := i) hT before edge (by rw [start]; decide)
    (by omega)
  have reach : ∀ m, m < bits.length ↔ m * T + T / 2 < before.length := sampled_iff hbits
  have hlen : bits.length = 10 := by
    have h9 := (reach 9).2 (by omega)
    have h10 := fun h => (reach 10).1 h
    omega
  refine ⟨bits ++ [x], by simp [hlen], fun m => ?_, ?_⟩
  · rcases Nat.lt_trichotomy m 10 with h | h | h
    · rw [List.getElem?_append_left (by omega), List.getElem?_append_left ((reach m).1 (by omega)), hbits]
    · subst h
      rw [← whole, ← hlen]
      simp
    · have := Nat.mul_le_mul_right T (Nat.succ_le_of_lt h)
      rw [List.getElem?_eq_none_iff.2 (by simp; omega), List.getElem?_eq_none_iff.2 (by simp; omega)]
  · intro rest
    rw [List.append_assoc, List.singleton_append, hfold]
    have hs : CharacterAssembly.hear T (.assembling (before.length - 1) bits) x =
        (if (bits ++ [x]).getD 10 true then .absent else .heldLow 0, some (bits ++ [x])) := by
      have h1 : bits ++ [x] ≠ [true] := by
        intro h
        have := congrArg List.length h
        simp [hlen] at this
      rw [hear_sample (by rw [hlen]; omega), CharacterAssembly.sampled, if_neg h1,
        if_pos (by simp [hlen])]
    rw [hearLevels_cons_some hs]

/-- The data byte of eleven bits is the one whose bits they are. -/
theorem dataByte_eq {bits : List Bool} {d : Byte}
    (h : ∀ j, j < 8 → bits[j + 1]? = some (d.getLsbD j)) : dataByte bits = d := by
  have all : ∀ d : Byte, BitVec.ofNat 8 ((List.map d.getLsbD (List.range 8)).foldr
      (fun b n => b.toNat + 2 * n) 0) = d := by decide +kernel
  have hb : (bits.drop 1).take 8 = (List.range 8).map d.getLsbD := by
    apply List.ext_getElem?
    intro j
    by_cases hj : j < 8
    · rw [List.getElem?_take_of_lt hj, List.getElem?_drop, Nat.add_comm, h j hj]
      simp [hj]
    · rw [List.getElem?_eq_none_iff.2 (by simp; omega), List.getElem?_eq_none_iff.2 (by simp; omega)]
  rw [dataByte, hb, all]

end Sys2Proof.Machine
end

