-- ==== Sys2Proof/Laws/Memory.lean ====
section
/-! SUPPORT. The wave memory: what a write changes, and that every operation keeps the canonical form. -/

namespace Sys2Proof.Machine

/-- An address below the lower bound of a canonical list is unlisted. -/
theorem Memory.readCell_of_lt {m : Memory} {lo a : Nat} (h : Memory.wfFrom lo m = true)
    (ha : a < lo) : m.readCell a = Memory.unlisted := by
  induction m generalizing lo with
  | nil => rfl
  | cons c m ih =>
    obtain ⟨b, y⟩ := c
    simp only [Memory.wfFrom, Bool.and_eq_true, decide_eq_true_eq] at h
    have hb : b ≠ a := by omega
    simp only [Memory.readCell, hb, if_false]
    exact ih h.2 (by omega)

/-- What a write to one cell leaves to be read at every cell. -/
theorem Memory.readCell_writeCell {m : Memory} {lo : Nat} (h : Memory.wfFrom lo m = true)
    (a a' : Nat) (x : Byte) :
    (m.writeCell a x).readCell a' = if a' = a then x else m.readCell a' := by
  induction m generalizing lo with
  | nil =>
    simp only [Memory.writeCell]
    by_cases hx : x = Memory.unlisted
    · simp [hx, Memory.readCell]
    · simp only [hx, if_false, Memory.readCell]
      by_cases ha : a' = a
      · simp [ha]
      · simp [ha, Ne.symm ha]
  | cons c m ih =>
    obtain ⟨b, y⟩ := c
    simp only [Memory.wfFrom, Bool.and_eq_true, decide_eq_true_eq] at h
    have hlow : ∀ k, k ≤ b → Memory.readCell m k = Memory.unlisted :=
      fun k hk => Memory.readCell_of_lt h.2 (by omega)
    simp only [Memory.writeCell]
    split
    · next hab =>
      split
      · next hx =>
        by_cases ha : a' = a
        · subst ha
          have : b ≠ a' := by omega
          simp [Memory.readCell, this, hlow a' (by omega), hx]
        · simp [ha]
      · by_cases ha : a' = a
        · simp [ha, Memory.readCell]
        · simp [ha, Memory.readCell, Ne.symm ha]
    · split
      · next hab =>
        subst hab
        split
        · next hx =>
          by_cases ha : a' = a
          · subst ha; simp [hlow a' (by omega), hx]
          · simp [ha, Memory.readCell, Ne.symm ha]
        · by_cases ha : a' = a
          · simp [ha, Memory.readCell]
          · simp [ha, Memory.readCell, Ne.symm ha]
      · next hab =>
        simp only [Memory.readCell]
        by_cases hb : b = a'
        · have : a' ≠ a := by omega
          simp [hb, this]
        · simp only [hb, if_false]
          exact ih h.2

/-- A write to one cell of the memory keeps the canonical form. -/
theorem Memory.wfFrom_writeCell {m : Memory} {lo a : Nat} (x : Byte)
    (h : Memory.wfFrom lo m = true) (hlo : lo ≤ a) (ha : a < Memory.cells) :
    Memory.wfFrom lo (m.writeCell a x) = true := by
  induction m generalizing lo with
  | nil =>
    simp only [Memory.writeCell]
    split
    · rfl
    · next hx => simp [Memory.wfFrom, hlo, ha, hx]
  | cons c m ih =>
    obtain ⟨b, y⟩ := c
    simp only [Memory.wfFrom, Bool.and_eq_true, decide_eq_true_eq, bne_iff_ne] at h
    obtain ⟨⟨⟨h1, h2⟩, h3⟩, h4⟩ := h
    simp only [Memory.writeCell]
    split
    · next hab =>
      split
      · simp [Memory.wfFrom, h1, h2, h3, h4]
      · next hx =>
        have : a + 1 ≤ b := hab
        simp [Memory.wfFrom, hlo, ha, hx, this, h2, h3, h4]
    · split
      · next hab =>
        subst hab
        split
        · next hx =>
          clear ih
          cases m with
          | nil => rfl
          | cons d m =>
            obtain ⟨e, z⟩ := d
            simp only [Memory.wfFrom, Bool.and_eq_true, decide_eq_true_eq, bne_iff_ne] at h4 ⊢
            exact ⟨⟨⟨by omega, h4.1.1.2⟩, h4.1.2⟩, h4.2⟩
        · next hx => simp [Memory.wfFrom, hlo, ha, hx, h4]
      · next hab hne =>
        simp only [Memory.wfFrom, Bool.and_eq_true, decide_eq_true_eq, bne_iff_ne]
        exact ⟨⟨⟨h1, h2⟩, h3⟩, ih h4 (by omega)⟩

/-- A write to one cell keeps the canonical form of the whole memory. -/
theorem Memory.wf_writeCell {m : Memory} {a : Nat} (x : Byte) (h : m.wf = true)
    (ha : a < Memory.cells) : (m.writeCell a x).wf = true :=
  Memory.wfFrom_writeCell x h (Nat.zero_le a) ha

/-- A stored sample keeps the canonical form. -/
theorem Memory.wf_writeSample {m : Memory} {a : Nat} (x : Half) (h : m.wf = true)
    (ha : a < 65536) : (m.writeSample a x).wf = true := by
  have hc : Memory.cells = 196608 := rfl
  exact Memory.wf_writeCell _ (Memory.wf_writeCell _ (Memory.wf_writeCell _ h (by omega))
    (by omega)) (by omega)

/-- A stored run keeps the canonical form. -/
theorem Memory.wf_writeRun {m : Memory} {a : Nat} (xs : List Half) (h : m.wf = true)
    (ha : a + xs.length ≤ 65536) : (m.writeRun a xs).wf = true := by
  induction xs generalizing m a with
  | nil => exact h
  | cons x xs ih =>
    simp only [List.length_cons] at ha
    exact ih (Memory.wf_writeSample x h (by omega)) (by omega)

/-- What a stored sample leaves to be read at every cell. -/
theorem Memory.readCell_writeSample {m : Memory} {a : Nat} (x : Half) (h : m.wf = true)
    (ha : a < 65536) (c : Nat) :
    (m.writeSample a x).readCell c =
      if c = 3 * a + 2 then 0
      else if c = 3 * a + 1 then x.extractLsb' 0 8
      else if c = 3 * a then x.extractLsb' 8 8
      else m.readCell c := by
  have hc : Memory.cells = 196608 := rfl
  have h1 := Memory.wf_writeCell (x.extractLsb' 8 8) h (a := 3 * a) (by omega)
  have h2 := Memory.wf_writeCell (x.extractLsb' 0 8) h1 (a := 3 * a + 1) (by omega)
  unfold Memory.writeSample
  rw [Memory.readCell_writeCell h2, Memory.readCell_writeCell h1, Memory.readCell_writeCell h]

/-- Putting a sample's two bytes together again. -/
theorem halves_append (x : Half) : (x.extractLsb' 8 8 ++ x.extractLsb' 0 8 : Half) = x := by
  ext i hi
  simp only [BitVec.getElem_append, BitVec.getElem_extractLsb']
  by_cases h : i < 8
  · simp [h, BitVec.getLsbD_eq_getElem hi]
  · have : 8 + (i - 8) = i := by omega
    simp [h, this, BitVec.getLsbD_eq_getElem hi]

/-- The sample read at any address after one sample has been stored. -/
theorem Memory.sampleBits_writeSample {m : Memory} {a : Nat} (x : Half) (h : m.wf = true)
    (ha : a < 65536) (b : Nat) :
    (m.writeSample a x).sampleBits b = if b = a then x else m.sampleBits b := by
  unfold Memory.sampleBits
  rw [Memory.readCell_writeSample x h ha, Memory.readCell_writeSample x h ha]
  by_cases hb : b = a
  · subst hb
    have e1 : ¬ (3 * b = 3 * b + 2) := by omega
    have e2 : ¬ (3 * b = 3 * b + 1) := by omega
    have e3 : ¬ (3 * b + 1 = 3 * b + 2) := by omega
    simp only [e1, e2, e3, if_false, if_true]
    exact halves_append x
  · have e1 : ¬ (3 * b = 3 * a + 2) := by omega
    have e2 : ¬ (3 * b = 3 * a + 1) := by omega
    have e3 : ¬ (3 * b = 3 * a) := by omega
    have e4 : ¬ (3 * b + 1 = 3 * a + 2) := by omega
    have e5 : ¬ (3 * b + 1 = 3 * a + 1) := by omega
    have e6 : ¬ (3 * b + 1 = 3 * a) := by omega
    simp only [e1, e2, e3, e4, e5, e6, hb, if_false]

/-- The parity status read at any address after one sample has been stored. -/
theorem Memory.parityFailed_writeSample {m : Memory} {a : Nat} (x : Half) (h : m.wf = true)
    (ha : a < 65536) (b : Nat) :
    (m.writeSample a x).parityFailed b = if b = a then false else m.parityFailed b := by
  unfold Memory.parityFailed
  rw [Memory.readCell_writeSample x h ha]
  by_cases hb : b = a
  · subst hb; simp
  · have e1 : ¬ (3 * b + 2 = 3 * a + 2) := by omega
    have e2 : ¬ (3 * b + 2 = 3 * a + 1) := by omega
    have e3 : ¬ (3 * b + 2 = 3 * a) := by omega
    simp only [e1, e2, e3, hb, if_false]

/-- A cell outside a stored run reads as before. -/
theorem Memory.readCell_writeRun {m : Memory} {a : Nat} (xs : List Half) (h : m.wf = true)
    (ha : a + xs.length ≤ 65536) (c : Nat) (hc : c < 3 * a ∨ 3 * (a + xs.length) ≤ c) :
    (m.writeRun a xs).readCell c = m.readCell c := by
  induction xs generalizing m a with
  | nil => rfl
  | cons x xs ih =>
    simp only [List.length_cons] at ha hc
    show ((m.writeSample a x).writeRun (a + 1) xs).readCell c = m.readCell c
    rw [ih (Memory.wf_writeSample x h (by omega)) (by omega) (by omega),
      Memory.readCell_writeSample x h (by omega)]
    have e1 : ¬ (c = 3 * a + 2) := by omega
    have e2 : ¬ (c = 3 * a + 1) := by omega
    have e3 : ¬ (c = 3 * a) := by omega
    simp only [e1, e2, e3, if_false]

/-- A memory that lists nothing is in canonical form. -/
theorem Memory.wf_nil : Memory.wf [] = true := rfl

end Sys2Proof.Machine
end

