-- ==== Sys2Proof/Laws/PerInstr.lean ====
section
/-! SUPPORT. Per command: the bytes a control-port command travels as are as many as the table of R166 says. -/

namespace Sys2Proof.Laws.Wire

open Sys2Proof Sys2Proof.Machine

/-- The parameter bytes of a well-formed command are as many as R166's table gives its command byte: for
WAVE_WRITE three and two for each sample its count byte names. An event of the part travels as no bytes. -/
def Statement (i : Instr) : Prop :=
  i.wellFormed = true →
    ∀ cmd bytes, wireOf i = some (cmd, bytes) →
      ∃ n, paramCount cmd = some n
        ∧ bytes.length = if cmd = 0x31 then n + 2 * Instr.samplesFor (bytes.getD 2 0) else n

theorem powerOn : Statement (.powerOn) := by
  rintro - cmd bytes h
  cases h

theorem powerOnClearEnd : Statement (.powerOnClearEnd) := by
  rintro - cmd bytes h
  cases h

theorem pinReset : Statement (.pinReset) := by
  rintro - cmd bytes h
  cases h

theorem transactionBegin : Statement (.transactionBegin) := by
  rintro - cmd bytes h
  cases h

theorem transactionEnd : Statement (.transactionEnd) := by
  rintro - cmd bytes h
  cases h

theorem unknownCommandByte (b : Byte) : Statement (.unknownCommandByte b) := by
  rintro - cmd bytes h
  cases h

theorem statusRead : Statement (.statusRead) := by
  rintro - cmd bytes h
  cases h
  exact ⟨_, rfl, rfl⟩

theorem stationRead (station clear : Byte) : Statement (.stationRead station clear) := by
  rintro - cmd bytes h
  cases h
  exact ⟨_, rfl, rfl⟩

theorem stationSet (p : StationSetParams) : Statement (.stationSet p) := by
  rintro - cmd bytes h
  cases h
  exact ⟨_, rfl, rfl⟩

theorem keysenseSet (station : Byte) (senses : Vector Byte 8) : Statement (.keysenseSet station senses) := by
  rintro - cmd bytes h
  cases h
  exact ⟨_, rfl, by simp⟩

theorem stationRestart (station : Byte) : Statement (.stationRestart station) := by
  rintro - cmd bytes h
  cases h
  exact ⟨_, rfl, rfl⟩

theorem panic : Statement (.panic) := by
  rintro - cmd bytes h
  cases h
  exact ⟨_, rfl, rfl⟩

theorem chartRead (chart pos : Byte) : Statement (.chartRead chart pos) := by
  rintro - cmd bytes h
  cases h
  exact ⟨_, rfl, rfl⟩

theorem chartAppend (chart : Byte) (e : EntryParams) : Statement (.chartAppend chart e) := by
  rintro - cmd bytes h
  cases h
  exact ⟨_, rfl, rfl⟩

theorem chartInsert (chart pos : Byte) (e : EntryParams) : Statement (.chartInsert chart pos e) := by
  rintro - cmd bytes h
  cases h
  exact ⟨_, rfl, rfl⟩

theorem chartReplace (chart pos : Byte) (e : EntryParams) : Statement (.chartReplace chart pos e) := by
  rintro - cmd bytes h
  cases h
  exact ⟨_, rfl, rfl⟩

theorem chartRemove (chart pos : Byte) : Statement (.chartRemove chart pos) := by
  rintro - cmd bytes h
  cases h
  exact ⟨_, rfl, rfl⟩

theorem chartClear (chart : Byte) : Statement (.chartClear chart) := by
  rintro - cmd bytes h
  cases h
  exact ⟨_, rfl, rfl⟩

theorem chartInfo : Statement (.chartInfo) := by
  rintro - cmd bytes h
  cases h
  exact ⟨_, rfl, rfl⟩

theorem editCompletion (order : List StationId) : Statement (.editCompletion order) := by
  rintro - cmd bytes h
  cases h

theorem templateSet (template count : Byte) (l0 l1 l2 : LayerParams) : Statement (.templateSet template count l0 l1 l2) := by
  rintro - cmd bytes h
  cases h
  exact ⟨_, rfl, rfl⟩

theorem templateRead (template : Byte) : Statement (.templateRead template) := by
  rintro - cmd bytes h
  cases h
  exact ⟨_, rfl, rfl⟩

theorem templateClear (template : Byte) : Statement (.templateClear template) := by
  rintro - cmd bytes h
  cases h
  exact ⟨_, rfl, rfl⟩

theorem waveDefine (wave : Byte) (start : Half) (k : Byte) : Statement (.waveDefine wave start k) := by
  rintro - cmd bytes h
  cases h
  exact ⟨_, rfl, rfl⟩

theorem waveWrite (start : Half) (count : Byte) (samples : List Half) : Statement (.waveWrite start count samples) := by
  rintro hw cmd bytes h
  cases h
  refine ⟨_, rfl, ?_⟩
  simp only [Instr.wellFormed, beq_iff_eq] at hw
  have hs : (samples.flatMap fun x => be16 x.toNat).length = 2 * samples.length := by
    clear hw
    induction samples with
    | nil => rfl
    | cons x l ih =>
      have h2 : (be16 x.toNat).length = 2 := rfl
      simp only [List.flatMap_cons, List.length_append, List.length_cons, ih, h2]
      omega
  have hb : (waveWriteBytes start count samples).length = 3 + 2 * samples.length := by
    have h2 : (be16 start.toNat).length = 2 := rfl
    simp only [waveWriteBytes, List.length_append, List.length_cons, hs, h2]
    omega
  rw [hb, hw]
  rfl

theorem waveRead (start : Half) (count : Byte) : Statement (.waveRead start count) := by
  rintro - cmd bytes h
  cases h
  exact ⟨_, rfl, rfl⟩

theorem waveDelete (wave : Byte) : Statement (.waveDelete wave) := by
  rintro - cmd bytes h
  cases h
  exact ⟨_, rfl, rfl⟩

theorem voiceRead (voice : Byte) : Statement (.voiceRead voice) := by
  rintro - cmd bytes h
  cases h
  exact ⟨_, rfl, rfl⟩

theorem faultRead : Statement (.faultRead) := by
  rintro - cmd bytes h
  cases h
  exact ⟨_, rfl, rfl⟩

theorem faultClear (count : Half) : Statement (.faultClear count) := by
  rintro - cmd bytes h
  cases h
  exact ⟨_, rfl, rfl⟩

theorem voiceRetire (voice : Byte) : Statement (.voiceRetire voice) := by
  rintro - cmd bytes h
  cases h
  exact ⟨_, rfl, rfl⟩

theorem faultPolicy (enable mask : Half) : Statement (.faultPolicy enable mask) := by
  rintro - cmd bytes h
  cases h
  exact ⟨_, rfl, rfl⟩

theorem character (st : StationId) (start data mark stop : List Bool) : Statement (.character st start data mark stop) := by
  rintro - cmd bytes h
  cases h

theorem sync (st : StationId) (intervals : List Nat) (stop : Bool) : Statement (.sync st intervals stop) := by
  rintro - cmd bytes h
  cases h

theorem syncTaken (st : StationId) : Statement (.syncTaken st) := by
  rintro - cmd bytes h
  cases h

theorem hello (st : StationId) : Statement (.hello st) := by
  rintro - cmd bytes h
  cases h

theorem play (st : StationId) : Statement (.play st) := by
  rintro - cmd bytes h
  cases h

theorem hush (st : StationId) : Statement (.hush st) := by
  rintro - cmd bytes h
  cases h

theorem replyEnd (st : StationId) : Statement (.replyEnd st) := by
  rintro - cmd bytes h
  cases h

theorem settleExpiry (st : StationId) : Statement (.settleExpiry st) := by
  rintro - cmd bytes h
  cases h

theorem silenceTimeout (st : StationId) : Statement (.silenceTimeout st) := by
  rintro - cmd bytes h
  cases h

theorem samplePeriod (voices : List VoiceId) (stations : List StationId) : Statement (.samplePeriod voices stations) := by
  rintro - cmd bytes h
  cases h

theorem glideStep (v : VoiceId) : Statement (.glideStep v) := by
  rintro - cmd bytes h
  cases h

theorem releaseCompletion (v : VoiceId) : Statement (.releaseCompletion v) := by
  rintro - cmd bytes h
  cases h

theorem orphanDrainCompletion (v : VoiceId) : Statement (.orphanDrainCompletion v) := by
  rintro - cmd bytes h
  cases h

theorem drainCompletion (v : VoiceId) : Statement (.drainCompletion v) := by
  rintro - cmd bytes h
  cases h

theorem pinResetRelease : Statement (.pinResetRelease) := by
  rintro - cmd bytes h
  cases h

theorem parameterByte (b : Byte) : Statement (.parameterByte b) := by
  rintro - cmd bytes h
  cases h

theorem notReady (b : Byte) : Statement (.notReady b) := by
  rintro - cmd bytes h
  cases h

theorem responseEnd : Statement (.responseEnd) := by
  rintro - cmd bytes h
  cases h

end Sys2Proof.Laws.Wire
end

