-- ==== Sys2Proof/Laws/Port.lean ====
section
/-! SUPPORT. The control port's acceptance of a command, the numbers and records that bytes carry, and the bytes
and bits on MISO. -/

namespace Sys2Proof.Machine

/-- A command the port takes is answered with the code and the record its own rule gives. -/
theorem accept_taken {s : State} {cmd : Byte} {params : List Byte} {effect : State → Answer}
    (h : takesCommand s cmd params = true) :
    accept s cmd params effect =
      .next ((effect s).state.answered (effect s).code (effect s).record) := by
  simp [accept, h]

/-- A command the port does not take changes nothing. -/
theorem accept_not_taken {s : State} {cmd : Byte} {params : List Byte} {effect : State → Answer}
    (h : takesCommand s cmd params = false) : accept s cmd params effect = .next s := by
  simp [accept, h]

/-- A byte whose value is a number names it. -/
theorem nameOf_of_toNat {n : Nat} {b : Byte} {i : Fin n} (h : b.toNat = i.val) :
    nameOf n b = some i := by
  unfold nameOf
  rw [dif_pos (by omega)]
  congr 1
  exact Fin.ext h

/-- A byte at or above n names none of n things. -/
theorem nameOf_none {n : Nat} {b : Byte} (h : n ≤ b.toNat) : nameOf n b = none :=
  dif_neg (by omega)

/-- The byte of a number that is named is its value. -/
theorem toNat_of_nameOf {n : Nat} {b : Byte} {i : Fin n} (h : nameOf n b = some i) :
    b.toNat = i.val := by
  unfold nameOf at h
  split at h
  · cases h; rfl
  · cases h

/-- An entry passes the refusals of R28 exactly when its keys lie within its mask and its register key is one. -/
theorem entryRefused_false_iff (e : EntryParams) :
    entryRefused e = false ↔
      (∀ k : KeyId, e.pattern.getLsbD k.val = true → e.mask.getLsbD k.val = true)
        ∧ (e.regKey.toNat ≤ 31 ∨ e.regKey = 0xFF) := by
  unfold entryRefused
  simp only [Bool.or_eq_false_iff, bne_eq_false_iff_eq, Bool.and_eq_false_iff,
    decide_eq_false_iff_not, Nat.not_lt]
  refine and_congr ⟨fun h k hk => ?_, fun h => BitVec.eq_of_getLsbD_eq fun n hn => ?_⟩ Iff.rfl
  · have h2 := congrArg (fun x : Word => x.getLsbD k.val) h
    simp only [BitVec.getLsbD_and, BitVec.getLsbD_not, hk, Bool.true_and] at h2
    simpa using h2
  · have h2 := h ⟨n, hn⟩
    simp only [BitVec.getLsbD_and, BitVec.getLsbD_not]
    simp at h2 ⊢
    intro h3
    simp [h2 h3]

/-! ### Fields from their bytes -/

theorem halfOf_be16 (x : Half) : halfOf (BitVec.ofNat 8 (x.toNat / 256)) (BitVec.ofNat 8 x.toNat) = x := by
  apply BitVec.eq_of_toNat_eq
  have h := x.isLt
  rw [halfOf, BitVec.toNat_append, ← Nat.shiftLeft_add_eq_or_of_lt (BitVec.isLt _)]
  simp only [BitVec.toNat_ofNat, Nat.shiftLeft_eq]
  omega

theorem be16_halfOf (hi lo : Byte) : be16 (halfOf hi lo).toNat = [hi, lo] := by
  have h1 := hi.isLt
  have h2 := lo.isLt
  have h : (halfOf hi lo).toNat = hi.toNat * 256 + lo.toNat := by
    rw [halfOf, BitVec.toNat_append, ← Nat.shiftLeft_add_eq_or_of_lt lo.isLt, Nat.shiftLeft_eq]
  rw [h, be16]
  congr 1
  · apply BitVec.eq_of_toNat_eq
    simp only [BitVec.toNat_ofNat]
    omega
  · congr 1
    apply BitVec.eq_of_toNat_eq
    simp only [BitVec.toNat_ofNat]
    omega

theorem wordOf_be32 (x : Word) :
    wordOf (BitVec.ofNat 8 (x.toNat / 16777216)) (BitVec.ofNat 8 (x.toNat / 65536))
      (BitVec.ofNat 8 (x.toNat / 256)) (BitVec.ofNat 8 x.toNat) = x := by
  apply BitVec.eq_of_toNat_eq
  have h := x.isLt
  simp only [wordOf, halfOf, BitVec.toNat_append]
  rw [← Nat.shiftLeft_add_eq_or_of_lt (BitVec.isLt _), ← Nat.shiftLeft_add_eq_or_of_lt (BitVec.isLt _),
    ← Nat.shiftLeft_add_eq_or_of_lt]
  · simp only [BitVec.toNat_ofNat, Nat.shiftLeft_eq]
    omega
  · simp only [BitVec.toNat_ofNat, Nat.shiftLeft_eq]
    omega

theorem be32_wordOf (b3 b2 b1 b0 : Byte) : be32 (wordOf b3 b2 b1 b0).toNat = [b3, b2, b1, b0] := by
  have h3 := b3.isLt
  have h2 := b2.isLt
  have h1 := b1.isLt
  have h0 := b0.isLt
  have h : (wordOf b3 b2 b1 b0).toNat =
      b3.toNat * 16777216 + b2.toNat * 65536 + b1.toNat * 256 + b0.toNat := by
    simp only [wordOf, halfOf, BitVec.toNat_append]
    rw [← Nat.shiftLeft_add_eq_or_of_lt b0.isLt, ← Nat.shiftLeft_add_eq_or_of_lt b2.isLt,
      ← Nat.shiftLeft_add_eq_or_of_lt]
    · simp only [Nat.shiftLeft_eq]
      omega
    · simp only [Nat.shiftLeft_eq]
      omega
  rw [h, be32]
  refine List.cons_eq_cons.2 ⟨?_, List.cons_eq_cons.2 ⟨?_, List.cons_eq_cons.2 ⟨?_,
    List.cons_eq_cons.2 ⟨?_, rfl⟩⟩⟩⟩ <;>
  · apply BitVec.eq_of_toNat_eq
    simp only [BitVec.toNat_ofNat]
    omega

/-- Twelve bytes carry exactly the entry whose bytes they are. -/
theorem entryFrom_eq_some_iff {l : List Byte} {e : EntryParams} :
    entryFrom l = some e ↔ l = entryParamBytes e := by
  constructor
  · intro h
    unfold entryFrom at h
    split at h
    · cases h
      simp [entryParamBytes, be32_wordOf]
    · cases h
  · rintro rfl
    simp only [entryFrom, entryParamBytes, be32, List.cons_append, List.nil_append, wordOf_be32]

/-- Thirteen bytes carry exactly the position and the entry whose bytes they are. -/
theorem placedFrom_eq_some_iff {l : List Byte} {x : Byte × EntryParams} :
    placedFrom l = some x ↔ l = x.1 :: entryParamBytes x.2 := by
  obtain ⟨pos, e⟩ := x
  cases l with
  | nil => simp [placedFrom]
  | cons a l =>
    simp only [placedFrom, Option.map_eq_some_iff, entryFrom_eq_some_iff, Prod.mk.injEq, List.cons_eq_cons]
    exact ⟨fun ⟨_, h, ha, he⟩ => ⟨ha, he ▸ h⟩, fun ⟨ha, h⟩ => ⟨e, h, ha, rfl⟩⟩

/-- Twelve bytes carry exactly the layer whose bytes they are. -/
theorem layerFrom_eq_some_iff {l : List Byte} {x : LayerParams} :
    layerFrom l = some x ↔ l = layerParamBytes x := by
  constructor
  · intro h
    unfold layerFrom at h
    split at h
    · cases h
      simp [layerParamBytes, be16_halfOf]
    · cases h
  · rintro rfl
    simp only [layerFrom, layerParamBytes, be16, List.cons_append, List.nil_append, halfOf_be16]

/-- Twenty-seven bytes carry exactly the STATION_SET whose bytes they are. -/
theorem stationSetFrom_eq_some_iff {l : List Byte} {p : StationSetParams} :
    stationSetFrom l = some p ↔ l = stationSetBytes p := by
  constructor
  · intro h
    unfold stationSetFrom at h
    split at h
    · cases h
      simp [stationSetBytes, settingParamBytes, be16_halfOf]
    · cases h
  · rintro rfl
    simp only [stationSetFrom, stationSetBytes, settingParamBytes, be16, List.cons_append, List.nil_append,
      halfOf_be16]

/-- Eight bytes carry exactly the senses whose bytes they are. -/
theorem sensesFrom_eq_some_iff {l : List Byte} {x : Vector Byte 8} :
    sensesFrom l = some x ↔ l = x.toList := by
  obtain ⟨⟨a⟩, ha⟩ := x
  have ha : a.length = 8 := ha
  unfold sensesFrom
  constructor
  · intro h
    split at h
    · cases h; rfl
    · cases h
  · intro h
    have h : l = a := h
    subst h
    simp [ha]

/-- Bytes carry exactly the samples whose bytes they are. -/
theorem samplesFrom_eq_some_iff {l : List Byte} {xs : List Half} :
    samplesFrom l = some xs ↔ l = xs.flatMap fun x => be16 x.toNat := by
  induction xs generalizing l with
  | nil =>
    unfold samplesFrom
    split <;> simp
  | cons x xs ih =>
    unfold samplesFrom
    split
    · simp [be16]
    · simp [be16]
    · rename_i hi lo l
      simp only [Option.map_eq_some_iff, List.cons_eq_cons, List.flatMap_cons]
      constructor
      · rintro ⟨ys, hy, rfl, rfl⟩
        rw [be16_halfOf, ih.1 hy]
        rfl
      · intro h
        rw [be16, List.cons_append, List.cons_append, List.nil_append, List.cons_eq_cons,
          List.cons_eq_cons] at h
        obtain ⟨rfl, rfl, h⟩ := h
        exact ⟨xs, ih.2 h, halfOf_be16 x, rfl⟩

/-- Bytes carry exactly the WAVE_WRITE whose bytes they are, and only a well-formed one. -/
theorem waveWriteFrom_eq_some_iff {l : List Byte} {c : Instr} :
    waveWriteFrom l = some c ↔
      ∃ start count xs, c = .waveWrite start count xs ∧ c.wellFormed = true
        ∧ l = waveWriteBytes start count xs := by
  constructor
  · intro h
    unfold waveWriteFrom at h
    split at h
    · rename_i s1 s0 count l
      cases hl : samplesFrom l with
      | none => simp [hl] at h
      | some xs =>
        simp only [hl, Option.bind_eq_bind, Option.bind_some, Option.ite_none_right_eq_some] at h
        obtain ⟨hn, h⟩ := h
        cases h
        refine ⟨_, _, _, rfl, by simpa [Instr.wellFormed] using hn, ?_⟩
        rw [samplesFrom_eq_some_iff.1 hl, waveWriteBytes, be16_halfOf]
        rfl
    · cases h
  · rintro ⟨start, count, xs, rfl, hw, rfl⟩
    have hn : xs.length = Instr.samplesFor count := by simpa [Instr.wellFormed] using hw
    have hl := (samplesFrom_eq_some_iff (xs := xs)).2 rfl
    rw [waveWriteBytes, be16, List.cons_append, List.cons_append, List.nil_append]
    simp only [waveWriteFrom, hl, Option.bind_eq_bind, Option.bind_some, hn, if_true, halfOf_be16]

/-- Bytes carry exactly the TEMPLATE_SET whose bytes they are. -/
theorem templateSetFrom_eq_some_iff {l : List Byte} {c : Instr} :
    templateSetFrom l = some c ↔
      ∃ template count l0 l1 l2, c = .templateSet template count l0 l1 l2
        ∧ l = templateSetBytes template count l0 l1 l2 := by
  constructor
  · intro h
    unfold templateSetFrom at h
    split at h
    · rename_i template count l
      simp only [Option.bind_eq_bind, Option.bind_eq_some_iff, layerFrom_eq_some_iff] at h
      obtain ⟨l0, h0, l1, h1, l2, h2, h⟩ := h
      cases h
      refine ⟨_, _, _, _, _, rfl, ?_⟩
      have hl : l = l.take 12 ++ (l.drop 12).take 12 ++ l.drop 24 := by
        rw [show l.drop 24 = (l.drop 12).drop 12 by rw [List.drop_drop], List.append_assoc,
          List.take_append_drop, List.take_append_drop]
      rw [templateSetBytes, ← h0, ← h1, ← h2, ← hl]
    · cases h
  · rintro ⟨template, count, l0, l1, l2, rfl, rfl⟩
    have h (x : LayerParams) := (layerFrom_eq_some_iff (x := x)).2 rfl
    have d0 : (layerParamBytes l0 ++ layerParamBytes l1 ++ layerParamBytes l2).take 12
        = layerParamBytes l0 := rfl
    have d1 : ((layerParamBytes l0 ++ layerParamBytes l1 ++ layerParamBytes l2).drop 12).take 12
        = layerParamBytes l1 := rfl
    have d2 : (layerParamBytes l0 ++ layerParamBytes l1 ++ layerParamBytes l2).drop 24
        = layerParamBytes l2 := rfl
    simp only [templateSetFrom, templateSetBytes, d0, d1, d2, h]
    rfl

/-! ### MISO -/

theorem misoByte_idle (csLow awaitHigh : Bool) (n : Nat) :
    (Port.mk .idle csLow awaitHigh).misoByte n = none := rfl

theorem misoByte_command (csLow awaitHigh : Bool) (n : Nat) :
    (Port.mk .command csLow awaitHigh).misoByte n = some 0xFF := rfl

theorem misoByte_parameters (cmd : Byte) (taken : List Byte) (m : Nat) (csLow awaitHigh : Bool) (n : Nat) :
    (Port.mk (.parameters cmd taken m) csLow awaitHigh).misoByte n = some 0xFF := rfl

theorem misoByte_response_zero (code : ResultCode) (r : List Byte) (csLow awaitHigh : Bool) :
    (Port.mk (.response code r) csLow awaitHigh).misoByte 0 = some code.value := rfl

theorem misoByte_response_succ (code : ResultCode) (r : List Byte) (csLow awaitHigh : Bool) (n : Nat) :
    (Port.mk (.response code r) csLow awaitHigh).misoByte (n + 1) = some (r.getD n 0xFF) := by
  simp [Port.misoByte, Port.miso]

theorem misoByte_ignore_none (csLow awaitHigh : Bool) (n : Nat) :
    (Port.mk (.ignore none) csLow awaitHigh).misoByte n = some 0xFF := rfl

theorem misoByte_ignore_zero (code : ResultCode) (csLow awaitHigh : Bool) :
    (Port.mk (.ignore (some code)) csLow awaitHigh).misoByte 0 = some code.value := rfl

theorem misoByte_ignore_succ (code : ResultCode) (csLow awaitHigh : Bool) (n : Nat) :
    (Port.mk (.ignore (some code)) csLow awaitHigh).misoByte (n + 1) = some 0xFF := rfl

end Sys2Proof.Machine
end

