-- ==== Sys2Proof/Laws/Render.lean ====
section
/-! SUPPORT. The renderer's pitch step: what it changes of a voice, and that it forms the pitch as R111 and R112
say; and what time that goes by does to a station. -/

namespace Sys2Proof.Machine

/-- Outside a frame's last bit time, a bit time passes two MCLK periods to each station's transmitter. -/
theorem station_passBitTime (s : State) (i : StationId) :
    (passBitTime s).station i = if s.audio.position < 255 then (s.station i).passPeriods 2 else s.station i := by
  unfold passBitTime
  split
  · simp [State.station]
  · rfl

/-- A timer's tick is its fall by one sample period. -/
theorem timerFell_tick (t : Timer) : TimerFell t t.tick := by
  cases t with
  | stopped => exact ⟨fun n h => (nomatch h), fun _ => rfl⟩
  | running m => exact ⟨fun n h => (by cases h; rfl), fun h => absurd rfl (h m)⟩
  | expired => exact ⟨fun n h => (nomatch h), fun _ => rfl⟩

/-- The clocks take each station to the end of the frame. -/
theorem ticked_tickClocks (s : State) (i : StationId) :
    Ticked (restOfFrame s) (s.station i) ((tickClocks s).station i) := by
  have h : (tickClocks s).station i = tickStation (restOfFrame s) (s.station i) := by
    simp [tickClocks, State.station]
  rw [h]
  exact ⟨rfl, timerFell_tick _, timerFell_tick _⟩

/-- The advance of the countdown changes base pitch and glide only (R111). -/
theorem advanceGlide_eq (s : State) (x : Voice) :
    advanceGlide s x =
      { x with base := (advanceGlide s x).base, glide := (advanceGlide s x).glide } := by
  unfold advanceGlide
  split
  · rfl
  · split
    · unfold Voice.glideStep
      dsimp only
      split
      · rfl
      · split <;> rfl
    · rfl
  · rfl

/-- A clamped pitch as a number. -/
theorem clampPitch_cast (p : Int) : ((clampPitch p : Nat) : Int) = max 0 (min 8191 p) := by
  simp only [clampPitch, clampInt]
  omega

/-- Step 1 of R113 forms the voice's pitch. -/
theorem pitchFormed_formPitch {s : State} {x : Voice} {i : StationId} (h : x.outStation = some i) :
    PitchFormed s x (formPitch s (advanceGlide s x)) i := by
  have a := advanceGlide_eq s x
  have eff : (advanceGlide s x).eff = x.eff := by rw [a]
  have inc : (advanceGlide s x).inc = x.inc := by rw [a]
  refine ⟨_, rfl, ?_, ?_, ?_⟩
  · have bend : bendFor s (advanceGlide s x) = (s.station i).breath.bend := by
      rw [a]; simp [bendFor, h]
    simp only [formPitch]
    rw [bend, ← clampPitch_cast]
    split
    · next e => simp [e]
    · rfl
  · simp only [formPitch]
    split
    · simp [inc]
    · next e =>
      dsimp only
      rw [← eff, if_neg e]
  · simp only [formPitch]
    split <;> rfl

end Sys2Proof.Machine
end

