-- ==== Sys2Proof/Laws/Tuning.lean ====
section
/-! SUPPORT. Every entry of the tuning table K is the integer R112 names. -/

namespace Sys2Proof.Machine

/-- n is nearest to 2^42 × 8.175798915643707 × 2^(s/768) / 48,000: with both sides of (2n ± 1)/2 brought to the
768th power, so that the comparison is one of integers. -/
def nearestTuning (s n : Nat) : Bool :=
  decide (((2 * n - 1) * (48000 * 10 ^ 15)) ^ 768 ≤ (2 ^ 43 * 8175798915643707) ^ 768 * 2 ^ s)
    && decide ((2 ^ 43 * 8175798915643707) ^ 768 * 2 ^ s ≤ ((2 * n + 1) * (48000 * 10 ^ 15)) ^ 768)

/-- The positions lo to lo + n − 1 hold their nearest integers. -/
def tuningOk (lo n : Nat) : Bool := (List.range n).all fun k => nearestTuning (lo + k) (tuning (lo + k))

theorem tuning_nearest_0 : tuningOk 0 192 = true := by decide +kernel

theorem tuning_nearest_1 : tuningOk 192 192 = true := by decide +kernel

theorem tuning_nearest_2 : tuningOk 384 192 = true := by decide +kernel

theorem tuning_nearest_3 : tuningOk 576 192 = true := by decide +kernel

/-- Every entry of K is the integer R112 names. -/
theorem tuning_nearest {s : Nat} (h : s < 768) : nearestTuning s (tuning s) = true := by
  have key : ∀ lo, tuningOk lo 192 = true → lo ≤ s → s < lo + 192 →
      nearestTuning s (tuning s) = true := by
    intro lo hl h1 h2
    have := List.all_eq_true.mp hl (s - lo) (List.mem_range.mpr (by omega))
    rwa [Nat.add_sub_cancel' h1] at this
  by_cases h0 : s < 192
  · exact key 0 tuning_nearest_0 (by omega) (by omega)
  · by_cases h1 : s < 384
    · exact key 192 tuning_nearest_1 (by omega) (by omega)
    · by_cases h2 : s < 576
      · exact key 384 tuning_nearest_2 (by omega) (by omega)
      · exact key 576 tuning_nearest_3 (by omega) (by omega)

end Sys2Proof.Machine
end

