-- ==== Sys2Proof/Laws/Voices.lean ====
section
/-! SUPPORT. Each operation on a voice record keeps the record within its ranges (R108); a layer copied from a
template lies within its ranges (R75). -/

namespace Sys2Proof.Machine

/-- A stopped countdown has no periods to go. -/
theorem stopped_inRange (n : Nat) (h : Glide.stopped = .running n ∨ Glide.stopped = .advanced n) :
    1 ≤ n ∧ n ≤ 48 := by
  rcases h with h | h <;> cases h

/-- A clamped pitch lies within R108's range. -/
theorem clampPitch_le (p : Int) : clampPitch p ≤ 8191 := by
  simp only [clampPitch, clampInt]
  omega

/-- A FREE voice's record lies within its ranges. -/
theorem inRange_free : Voice.free.inRange :=
  ⟨by decide, by decide, stopped_inRange, fun h => absurd rfl h,
    fun _ => rfl, (fun c h => by cases h)⟩

/-- A voice given to a slot lies within its ranges where the slot's copy does (R86). -/
theorem inRange_givenVoice (s : State) (o : Owner) {copy : Option LayerCopy} {pitch : Nat}
    (hp : pitch ≤ 8191) (hc : ∀ c, copy = some c → c.inRange) :
    (givenVoice s o copy pitch).inRange :=
  ⟨⟨hp, hp, clampPitch_le _⟩, ⟨Nat.zero_le _, Nat.zero_le _⟩,
    stopped_inRange, fun _ => rfl, (fun h => by cases h), hc⟩

/-- The pitch a slot sounds at lies within R108's range. -/
theorem slotPitch_le (s : State) (i : StationId) (copy : Option LayerCopy) :
    slotPitch s i copy ≤ 8191 := by
  unfold slotPitch
  split
  · exact clampPitch_le _
  · exact Nat.zero_le _

/-- A voice in use that begins to drain stays within its ranges (R88, R101, R102). -/
theorem Voice.inRange.toDrain {x : Voice} (h : x.inRange) (hs : x.state ≠ .free) :
    x.toDrain.inRange := by
  obtain ⟨⟨a, -, b⟩, c, -, d, -, e⟩ := h
  exact ⟨⟨a, a, b⟩, c, stopped_inRange, fun _ => d hs,
    (fun h => by cases h), e⟩

/-- A voice whose release begins stays within its ranges (R97, R99). -/
theorem Voice.inRange.toRelease {x : Voice} (h : x.inRange) (t : Word) : (x.toRelease t).inRange := by
  unfold Voice.toRelease
  split
  · next hs =>
    obtain ⟨⟨a, -, b⟩, c, -, d, -, e⟩ := h
    exact ⟨⟨a, a, b⟩, c, stopped_inRange,
      fun _ => d (by rw [hs]; decide), (fun h => by cases h), e⟩
  · exact h

/-- A voice in use with another base pitch, target and countdown within their ranges stays within its ranges. -/
theorem Voice.inRange.glided {x : Voice} (h : x.inRange) (hs : x.state ≠ .free) {b t : Nat}
    {g : Glide} (hb : b ≤ 8191) (ht : t ≤ 8191)
    (hg : ∀ n, g = .running n ∨ g = .advanced n → 1 ≤ n ∧ n ≤ 48) :
    ({ x with base := b, target := t, glide := g } : Voice).inRange := by
  obtain ⟨⟨-, -, a⟩, c, -, d, -, e⟩ := h
  exact ⟨⟨hb, ht, a⟩, c, hg, d, fun k => absurd k hs, e⟩

/-- A voice in use with a new target stays within its ranges (R111). -/
theorem Voice.inRange.retarget {x : Voice} (h : x.inRange) (hs : x.state ≠ .free) {p : Nat}
    (hp : p ≤ 8191) (rate : Nat) : (x.retarget p rate).inRange := by
  unfold Voice.retarget
  split
  · exact h.glided hs h.1.1 hp stopped_inRange
  · split
    · exact h.glided hs hp hp stopped_inRange
    · refine h.glided hs h.1.1 hp ?_
      have old := h.2.2.1
      intro n k
      cases hg : x.glide with
      | stopped =>
        rw [hg] at k
        rcases k with k | k <;> cases k
        exact ⟨by decide, by decide⟩
      | running m =>
        rw [hg] at k
        rcases k with k | k <;> cases k
        exact old _ (.inl hg)
      | advanced m =>
        rw [hg] at k
        rcases k with k | k <;> cases k
        exact old _ (.inr hg)

/-- A glide step keeps a voice in use within its ranges (R111). -/
theorem Voice.inRange.glideStep {x : Voice} (h : x.inRange) (hs : x.state ≠ .free) (rate : Nat)
    {again : Glide} (ha : ∀ n, again = .running n ∨ again = .advanced n → 1 ≤ n ∧ n ≤ 48) :
    (x.glideStep rate again).inRange := by
  have hb := h.1.1
  have ht := h.1.2.1
  unfold Voice.glideStep
  dsimp only
  split
  · exact h.glided hs ht ht stopped_inRange
  · split
    · exact h.glided hs (by omega) ht ha
    · exact h.glided hs (by omega) ht ha

/-- The advance of the countdown keeps a voice in use within its ranges (R111). -/
theorem inRange_advanceGlide (s : State) {x : Voice} (h : x.inRange) (hs : x.state ≠ .free) :
    (advanceGlide s x).inRange := by
  have old := h.2.2.1
  unfold advanceGlide
  split
  · exact h
  · next n hg =>
    have hn := old n (.inl hg)
    split
    · refine h.glideStep hs _ ?_
      intro m k
      rcases k with k | k <;> cases k
      exact ⟨by decide, by decide⟩
    · refine h.glided hs h.1.1 h.1.2.1 ?_
      intro m k
      rcases k with k | k <;> cases k
      omega
  · next n hg =>
    have hn := old n (.inr hg)
    refine h.glided hs h.1.1 h.1.2.1 ?_
    intro m k
    rcases k with k | k <;> cases k
    exact hn

/-- The effective pitch formed anew keeps a voice in use within its ranges (R112). -/
theorem inRange_formPitch (s : State) {x : Voice} (h : x.inRange) (hs : x.state ≠ .free) :
    (formPitch s x).inRange := by
  simp only [formPitch]
  split
  · exact h
  · obtain ⟨⟨a, b, -⟩, c, d, -, -, e⟩ := h
    exact ⟨⟨a, b, clampPitch_le _⟩, c, d, fun _ => rfl, fun k => absurd k hs, e⟩

/-- The target of an amplitude lies within R108's range where the level and the copy do (R115). -/
theorem targetOf_le (s : State) {x : Voice} (h : x.inRange) (hl : levelFor s x ≤ 1023) :
    targetOf s x ≤ 65472 := by
  unfold targetOf
  split
  · next c _ hc =>
    have ht : c.tone.level ≤ 255 := (h.2.2.2.2.2 c hc).1.2.2.1
    have : levelFor s x * c.tone.level ≤ 1023 * 255 := Nat.mul_le_mul hl ht
    omega
  · exact Nat.zero_le _

/-- Steps 4 to 6 of R113 keep a voice in use within its ranges. -/
theorem inRange_rampVoice (s : State) {x : Voice} (h : x.inRange) (hs : x.state ≠ .free)
    (hl : levelFor s x ≤ 1023) : (rampVoice s x).inRange := by
  have ht := targetOf_le s h hl
  have ha : moveToward x.amp (targetOf s x) (stepSize x) ≤ 65472 := by
    have := h.2.1.1
    unfold moveToward
    split <;> omega
  exact ⟨h.1, ⟨ha, ht⟩, h.2.2.1, h.2.2.2.1, fun k => absurd k hs, h.2.2.2.2.2⟩

/-- A layer of a template, copied, lies within its ranges (R74, R75). -/
theorem inRange_copyLayer {s : State} (h : StoresOk s) {n : TemplateId} {l : Layer}
    (hl : l ∈ s.templates[n]) : (copyLayer s l).inRange := by
  obtain ⟨ha, hb, ht⟩ := (h.2 n).2 l hl
  have region : ∀ w, s.waves[w] ≠ none → (resolveWave s w).region.inRange := by
    intro w hw
    cases hr : s.waves[w] with
    | none => exact absurd hr hw
    | some r =>
      have e : (resolveWave s w).region = r := by simp only [resolveWave]; rw [hr]; rfl
      rw [e]
      exact h.1 w r hr
  refine ⟨ht, region _ ha, fun b hb' => ?_⟩
  cases hw : l.waveB with
  | none => simp only [copyLayer, hw] at hb'; cases hb'
  | some w =>
    simp only [copyLayer, hw, Option.map_some, Option.some.injEq] at hb'
    rw [← hb']
    exact region _ (hb w hw)

end Sys2Proof.Machine
end

