-- ==== Sys2Proof/Tests/Slice0.lean ====
section
/-! SUPPORT. Tests: the ill-formed terms that the check refuses, the worked figures of the spec, one step of each
command on a small state, and for every statement with hypotheses a state that meets them. -/

namespace Sys2Proof.Tests
open Sys2Proof.Machine
set_option Elab.async false

/-! ### Helpers -/

/-- What a projection shows of a next state. -/
def seen {α : Type} (o : Host.Outcome State Fault Refusal) (f : State → α) : Option α :=
  match o with
  | .next s => some (f s)
  | .fault _ | .refused _ => none

/-- The next state, or `base` where there is none. -/
def nextOr (base : State) (o : Host.Outcome State Fault Refusal) : State := (seen o id).getD base

/-- The part after power-on with the clear over. -/
def base : State := { State.reset with clearRunning := false }

/-- s with the port in COMMAND. -/
def atPort (s : State) : State := { s with port := ⟨.command, true, false⟩ }

/-- s with the port in PARAMETERS. -/
def inParams (cmd : Byte) (taken : List Byte) (n : Nat) (s : State) : State :=
  { s with port := ⟨.parameters cmd taken n, true, false⟩ }

/-- s with station 0 replaced. -/
def withStation (x : Station) (s : State) : State := s.updStation 0 fun _ => x

/-- s with voice v replaced. -/
def withVoice (v : VoiceId) (x : Voice) (s : State) : State := s.updVoice v fun _ => x

/-- The result code and the record of the response the port drives. -/
def response (s : State) : Option (ResultCode × List Byte) :=
  match s.port.phase with
  | .response code record => some (code, record)
  | _ => none

/-- The result code of the response the port drives. -/
def code (s : State) : Option ResultCode := (response s).map Prod.fst

/-- An entry of the charts below: mask, pattern, note, register key. -/
def entry (mask pattern : Word) (note : Nat) (reg : Option KeyId) (breathReg : Bool) : Entry :=
  ⟨mask, pattern, ⟨note, reg, 12, breathReg⟩⟩

/-- Chart C2 of section 2.8. -/
def chartC2 : List Entry :=
  [entry 0x3F 0x3F 62 (some 6) false, entry 0x3F 0x1F 64 (some 6) false,
   entry 0x3F 0x0F 66 (some 6) false, entry 0x3F 0x07 67 (some 6) false,
   entry 0x07 0x03 69 (some 6) false, entry 0x07 0x01 71 (some 6) false,
   entry 0x07 0x00 73 none true]

/-- s with C2 of section 2.8 complete. -/
def withC2 (s : State) : State :=
  { s with
    charts :=
      { ChartStore.reset with
        lists := ChartStore.reset.lists.set 2 chartC2
        lengths := ChartStore.reset.lengths.set 2 7
        freeCells := 505 } }

/-- The part with C2 complete and a command byte next. -/
def charted : State := atPort (withC2 base)

/-- An entry as carried that passes its tests and is not clamped. -/
def entryIn : EntryParams := ⟨0x7F, 0x7F, 61, 6, 12, 0⟩

/-- An edit of C2 in flight, a command byte next. -/
def editing : State := atPort (nextOr base (exec (.chartAppend 2 entryIn) charted))

/-- C0 with 128 entries. -/
def full : State :=
  atPort { base with
    charts :=
      { ChartStore.reset with
        lists := ChartStore.reset.lists.set 0 (List.replicate 128 (entry 1 1 60 none false))
        lengths := ChartStore.reset.lengths.set 0 128
        freeCells := 384 } }

/-- A layer on W4 with an empty mask, and one on W9 under EXCESS (section 4.8). -/
def tone0 : Tone := ⟨0, 0, 200, 64, 0, .any, 512, 256⟩
def tone1 : Tone := ⟨48, 3, 90, 64, 1, .any, 4095, 1024⟩
def copy0 : LayerCopy := ⟨⟨4, ⟨4096, 10⟩⟩, some ⟨5, ⟨8192, 11⟩⟩, tone0⟩
def copy1 : LayerCopy := ⟨⟨9, ⟨0, 8⟩⟩, none, tone1⟩

/-- s with W4, W5, W9 defined and T5 of section 4.8. -/
def withT5 (s : State) : State :=
  { s with
    waves := ((s.waves.set 4 (some ⟨4096, 10⟩)).set 5 (some ⟨8192, 11⟩)).set 9 (some ⟨0, 8⟩)
    templates := s.templates.set 5 [⟨4, some 5, tone0⟩, ⟨9, none, tone1⟩] }

/-- A station LIVE on C2 and T5, calibrated at 812 and 2048, with bit time 41 and this frame waiting. -/
def live (frame : Option Frame) : Station :=
  { Station.reset with
    state := .live
    settings := { Settings.reset with chart := 2, template := 5 }
    breath := { Breath.reset with zero := 812, lipCentre := 2048 }
    link :=
      { Link.reset with
        bitTime := some 41, lastSeq := some 12, windowOpen := false
        silence := .running 1152, buffer := frame } }

/-- The part with station 0 LIVE. -/
def playing (frame : Option Frame) : State := withStation (live frame) (withT5 (withC2 base))

/-- A PLAY frame: sequence number 13, these keys, this breath, the lip at rest. -/
def playFrame (keys : Word) (breath : Nat) : Option Frame := some ⟨13, .play keys breath 2048⟩

/-- Station 0 sounding note 73, after one step from `playing`. -/
def noted : State := nextOr base (exec (.play 0) (playing (playFrame 0 2900)))

/-! ### Ill-formed terms -/

theorem test_waveWrite_needs_its_samples :
    (Instr.waveWrite 0 2 [1]).wellFormed = false ∧ (Instr.waveWrite 0 2 [1, 2, 3]).wellFormed = false
      ∧ (Instr.waveWrite 0 65 [1]).wellFormed = false ∧ (Instr.waveWrite 0 65 []).wellFormed = true
      ∧ (Instr.waveWrite 0 0 []).wellFormed = true ∧ (Instr.waveWrite 0 2 [1, 2]).wellFormed = true := by
  decide

theorem test_sync_needs_nine_intervals :
    (Instr.sync 0 [41, 41] true).wellFormed = false
      ∧ (Instr.sync 0 [41, 41, 41, 41, 41, 41, 41, 41, 0] true).wellFormed = false
      ∧ (Instr.sync 0 [41, 41, 41, 41, 41, 41, 41, 41, 41] true).wellFormed = true := by
  decide

theorem test_orders_name_nothing_twice :
    (Instr.editCompletion [1, 1]).wellFormed = false
      ∧ (Instr.samplePeriod [3, 4, 3] []).wellFormed = false
      ∧ (Instr.samplePeriod [] [2, 2]).wellFormed = false
      ∧ (Instr.samplePeriod [3, 4] [2]).wellFormed = true := by
  decide

/-! ### Commands from their bytes (R166, R169) -/

theorem test_every_command_byte_names_its_command :
    (commandOf 0x01 [] = some .statusRead ∧ commandOf 0x06 [] = some .panic
        ∧ commandOf 0x16 [] = some .chartInfo ∧ commandOf 0x50 [] = some .faultRead)
      ∧ (commandOf 0x05 [1] = some (.stationRestart 1) ∧ commandOf 0x15 [2] = some (.chartClear 2)
        ∧ commandOf 0x21 [3] = some (.templateRead 3) ∧ commandOf 0x22 [4] = some (.templateClear 4)
        ∧ commandOf 0x33 [5] = some (.waveDelete 5) ∧ commandOf 0x40 [6] = some (.voiceRead 6)
        ∧ commandOf 0x52 [7] = some (.voiceRetire 7))
      ∧ (commandOf 0x02 [1, 2] = some (.stationRead 1 2) ∧ commandOf 0x10 [3, 4] = some (.chartRead 3 4)
        ∧ commandOf 0x14 [5, 6] = some (.chartRemove 5 6)
        ∧ commandOf 0x51 [0x12, 0x34] = some (.faultClear 0x1234))
      ∧ (commandOf 0x32 [0x12, 0x34, 5] = some (.waveRead 0x1234 5)
        ∧ commandOf 0x30 [7, 0x12, 0x34, 5] = some (.waveDefine 7 0x1234 5)
        ∧ commandOf 0x53 [7, 0xFE, 0x12, 0x34] = some (.faultPolicy 0x07FE 0x1234)) := by decide

theorem test_records_from_their_bytes :
    commandOf 0x11 [2, 0, 0, 0, 0x3F, 0, 0, 0, 0x1F, 64, 6, 12, 1] =
        some (.chartAppend 2 ⟨0x3F, 0x1F, 64, 6, 12, 1⟩)
      ∧ commandOf 0x12 [2, 9, 1, 2, 3, 4, 0, 0, 0, 0, 64, 6, 12, 1] =
        some (.chartInsert 2 9 ⟨0x01020304, 0, 64, 6, 12, 1⟩)
      ∧ commandOf 0x13 [2, 9, 0, 0, 0, 0, 0, 0, 0, 0, 64, 6, 12, 1] =
        some (.chartReplace 2 9 ⟨0, 0, 64, 6, 12, 1⟩)
      ∧ commandOf 0x04 [1, 1, 2, 3, 4, 5, 6, 7, 8] = some (.keysenseSet 1 #v[1, 2, 3, 4, 5, 6, 7, 8])
      ∧ commandOf 0x03 [0, 1, 2, 3, 4, 5, 6, 7, 8, 9, 10, 11, 12, 13, 14, 15, 16, 17, 18, 19, 20, 21,
          22, 23, 24, 25, 26] =
        some (.stationSet ⟨0, 1, 2, 0x0304, 5, 6, 7, 8, 9, 0x0A0B, 12, 13, 0x0E0F, 0x1011, 18, 19, 20,
          0x1516, 23, 24, 25, 26⟩)
      ∧ commandOf 0x20 ([3, 1] ++ [1, 2, 3, 4, 5, 6, 7, 8, 9, 10, 11, 12] ++ List.replicate 24 0) =
        some (.templateSet 3 1 ⟨1, 2, 3, 4, 5, 6, 7, 8, 0x090A, 0x0B0C⟩ ⟨0, 0, 0, 0, 0, 0, 0, 0, 0, 0⟩
          ⟨0, 0, 0, 0, 0, 0, 0, 0, 0, 0⟩)
      ∧ commandOf 0x31 [0x12, 0x34, 2, 0xAB, 0xCD, 0, 1] = some (.waveWrite 0x1234 2 [0xABCD, 1])
      ∧ commandOf 0x31 [0, 0, 65] = some (.waveWrite 0 65 []) := by decide +kernel

theorem test_bytes_that_name_no_command :
    commandOf 0x00 [] = none ∧ commandOf 0x07 [] = none ∧ commandOf 0x54 [] = none
      ∧ commandOf 0x01 [0] = none ∧ commandOf 0x05 [] = none ∧ commandOf 0x10 [1] = none
      ∧ commandOf 0x31 [0, 0, 2, 0, 0] = none ∧ commandOf 0x31 [0, 0, 1, 0, 0, 0] = none := by decide

theorem test_a_word_spells_the_command_of_its_bytes :
    decodeTableWord 8 0x01 = some .statusRead ∧ decodeTableWord 8 0x06 = some .panic
      ∧ decodeTableWord 24 0x040310 = some (.chartRead 3 4) ∧ decodeTableWord 8 0x10 = some (.chartRead 0 0)
      ∧ decodeTableWord 48 0xCDAB01341231 = some (.waveWrite 0x1234 1 [0xABCD])
      ∧ decodeTableWord 8 0x00 = none ∧ decodeTableWord 16 0x0001 = none
      ∧ base.withFetchWord 8 0x06 = { base with pending := [.panic] }
      ∧ base.withFetchWord 8 0x07 = base := by decide +kernel

theorem test_bytes_on_mosi_stand_for_rows :
    ((atPort base).rowOfByte 0x06 = some .panic ∧ (atPort base).rowOfByte 0x05 = some (.parameterByte 0x05)
        ∧ (atPort base).rowOfByte 0x07 = some (.unknownCommandByte 0x07)
        ∧ (atPort State.reset).rowOfByte 0x06 = some (.notReady 0x06) ∧ base.rowOfByte 0x06 = none)
      ∧ (inParams 0x05 [] 1 base).rowOfByte 3 = some (.stationRestart 3)
      ∧ (inParams 0x31 [0, 9] 3 base).rowOfByte 0 = some (.waveWrite 9 0 [])
      ∧ (inParams 0x31 [0, 9] 3 base).rowOfByte 1 = some (.parameterByte 1)
      ∧ (inParams 0x31 [0, 9, 1] 5 base).rowOfByte 7 = some (.parameterByte 7)
      ∧ (inParams 0x31 [0, 9, 1, 7] 5 base).rowOfByte 8 = some (.waveWrite 9 1 [0x0708]) := by decide

/-! ### MISO and MOSI bit by bit (R163) -/

theorem test_miso_levels :
    (List.range 17).map (base.answered .unknown [0x81]).port.misoLevel =
        [false, false, false, false, false, true, true, false,
         true, false, false, false, false, false, false, true, true].map some
      ∧ (atPort base).port.misoByte 5 = some 0xFF ∧ base.port.misoLevel 0 = none := by decide

theorem test_mosi_levels :
    byteOfLevels [false, false, false, false, false, true, true, false] = 0x06
      ∧ byteOfLevels [true, false, false, false, false, false, false, true] = 0x81 := by decide

/-! ### The worked figures of the spec -/

/-- The settings of section 1.11. -/
def s111 : Settings := { Settings.reset with overblow := 700 }

/-- The breath unit after frames of these readings. -/
def afterFrames (c : Settings) (x : Breath) : List Nat → Breath
  | [] => x
  | b :: bs => afterFrames c (breathStep c x b 2048) bs

/-- Level, GATE and EXCESS after frames with these readings from a zero of 812. -/
def shown (c : Settings) (bs : List Nat) : Nat × Bool × Bool :=
  let x := afterFrames c { Breath.reset with zero := 812, lipCentre := 2048 } bs
  (x.level, x.ind.gate, x.ind.excess)

theorem test_worked_breath_sequence :
    shown s111 [850] = (0, false, false) ∧ shown s111 [850, 2900] = (718, true, true)
      ∧ shown s111 [2900, 2800] = (700, true, true) ∧ shown s111 [2800, 2700] = (681, true, true)
      ∧ shown s111 [2700, 2621] = (667, true, false) ∧ shown s111 [2621, 2700] = (681, true, false)
      ∧ shown s111 [2700, 2860] = (711, true, true) ∧ shown s111 [2860, 700] = (0, false, false) := by
  decide +kernel

theorem test_worked_limits :
    shown { s111 with curve := .linear } [2900] = (504, true, false)
      ∧ shown { s111 with ceiling := 600 } [2900] = (600, true, false)
      ∧ shown { s111 with gain := 0 } [2900] = (0, true, false)
      ∧ curveValue .root 1044225 = 1021 ∧ curveValue .linear 1044225 = 1019
      ∧ overblown 20 32 3 true true = true ∧ overblown 20 32 25 true false = true := by
  decide +kernel

/-- D of section 1.13 for a lip reading, a bend gain and the default range. -/
def bent (lip gain : Nat) : Int := bendOf (deflection 2048 16 lip) gain 128

theorem test_worked_bends :
    bent 2300 128 = 118 ∧ bent 1800 128 = -116 ∧ bent 2280 100 = 84 ∧ bent 1816 100 = -85
      ∧ bent 3048 255 = 128 ∧ bent 2060 128 = 0 ∧ bent 2300 0 = 0 := by
  decide

theorem test_worked_zero_follow :
    (breathStep Settings.reset ⟨812, 0, 0, 0, Indicators.clear, false, 254⟩ 790 0).borrowRun = 255
      ∧ (breathStep Settings.reset ⟨812, 0, 0, 0, Indicators.clear, false, 255⟩ 790 0).zero = 790
      ∧ (breathStep Settings.reset ⟨812, 0, 0, 0, Indicators.clear, false, 255⟩ 790 0).borrowRun = 0
      ∧ (breathStep Settings.reset ⟨790, 0, 0, 0, Indicators.clear, false, 0⟩ 900 0).level = 108 := by
  decide +kernel

theorem test_worked_lookups :
    (lookup chartC2 0x7F).map CurrentEntry.note = some 62
      ∧ (lookup chartC2 0x0F).map CurrentEntry.note = some 66 ∧ lookup chartC2 0x17 = none
      ∧ (lookup chartC2 0x23).map CurrentEntry.note = some 69
      ∧ (lookup chartC2 0).map CurrentEntry.note = some 73 := by
  decide

theorem test_worked_blend_and_scale :
    blend 10000 (-6000) 718 = -1219 ∧ contribution (-1219) 36032 64 = ⟨-336, -336⟩
      ∧ readAddress ⟨4096, 10⟩ 0x20000000 = 4224 ∧ readAddress ⟨8192, 11⟩ 0x20000000 = 8448
      ∧ moveToward 36032 20032 512 = 35520 ∧ moveToward 20100 20032 512 = 20032 := by
  decide

theorem test_worked_increments :
    incrementOf 4416 = 39370533 ∧ incrementOf 8191 = BitVec.ofNat 32 (tuning 511)
      ∧ clampPitch 8515 = 8191 := by
  decide +kernel

theorem test_worked_station_sum :
    limitOutput 920000 160 = 8388607 ∧ saturated 920000 160 = true ∧ limitOutput 760000 160 = 7600000
      ∧ saturated 760000 160 = false ∧ limitOutput (-850000) 160 = -8388607
      ∧ limitOutput 920000 120 = 6900000 := by
  decide

theorem test_worked_checks :
    checkSum [0x34, 0xCC] = 0 ∧ checkSum [0x11, 0x03, 0x07, 0x02, 0xE3] = 0
      ∧ contentOf .hello [0x11, 0x03, 0x07, 0x02, 0xE3] = .hello 3 7 2
      ∧ contentOf .play [0x2D, 1, 2, 3, 4, 0x54, 0x0B, 0, 8, 0] = .play 0x04030201 2900 2048 := by
  decide

/-- The edges of the detector's range: spans of 68 and 895 periods are learned, 67 and 896 are not. -/
theorem test_sync_spans :
    syncAccepted [8, 8, 8, 8, 7, 7, 7, 7, 8] true = true
      ∧ syncAccepted [8, 8, 8, 7, 7, 7, 7, 7, 8] true = false
      ∧ syncAccepted [99, 99, 99, 99, 99, 100, 100, 100, 100] true = true
      ∧ syncAccepted [99, 99, 99, 99, 100, 100, 100, 100, 100] true = false
      ∧ measuredBitTime [41, 41, 41, 41, 41, 41, 41, 41, 40] = 41
      ∧ syncAccepted [41, 41, 41, 41, 41, 41, 41, 41, 53] true = false := by
  decide

/-- The sixteenth sample of section 7.8. -/
theorem test_worked_calibration :
    (sampleStation 816 2048
        { Station.reset with
          state := .calibrating, calib := ⟨15, 12202, 30720, some 810, some 816⟩ }).breath.zero = 813
      ∧ (sampleStation 816 2048
        { Station.reset with
          state := .calibrating, calib := ⟨15, 12202, 30720, some 810, some 816⟩ }).breath.lipCentre = 2048
      ∧ calibSample 96 ⟨4, 3277, 0, some 812, some 830⟩ 0 950 0 = (⟨1, 950, 0, some 950, some 950⟩, 1) := by
  decide +kernel

/-! ### One step of each command -/

theorem test_powerOn : seen (exec .powerOn noted) id = some State.reset := by decide +kernel

theorem test_powerOnClearEnd : seen (exec .powerOnClearEnd State.reset) id = some base := by decide +kernel

theorem test_pinReset :
    seen (exec .pinReset editing) (fun s => (s.charts.lengths[2], s.charts.freeCells, s.charts.edit,
      s.port.csLow, s.rstAsserted)) = some (7, 505, none, true, true) := by decide +kernel

theorem test_pinResetRelease :
    seen (exec .pinResetRelease { atPort base with rstAsserted := true })
      (fun s => (s.rstAsserted, s.port.awaitHigh)) = some (false, true) := by decide

theorem test_transactionBegin :
    seen (exec .transactionBegin base) (fun s => s.port) = some ⟨.command, true, false⟩ := by decide

theorem test_transactionEnd :
    seen (exec .transactionEnd (inParams 0x03 [0, 1] 27 base))
      (fun s => (s.port, s.faults.first.map FaultRecord.detail, s.faults.count)) =
        some (Port.reset, some 0x203, 1) := by decide +kernel

theorem test_unknownCommandByte :
    seen (exec (.unknownCommandByte 0x07) (atPort base)) (fun s => s.port.miso) = some (some [6])
      ∧ seen (exec (.unknownCommandByte 0x06) (atPort base)) (fun s => s.port.miso) = some (some []) := by
  decide +kernel

theorem test_notReady :
    seen (exec (.notReady 0x01) (atPort State.reset)) (fun s => s.port.miso) = some (some [7]) := by
  decide

theorem test_parameterByte :
    seen (exec (.parameterByte 0x31) (atPort base)) (fun s => s.port.phase) =
        some (.parameters 0x31 [] 3)
      ∧ seen (exec (.parameterByte 64) (inParams 0x31 [0, 0] 3 base)) (fun s => s.port.phase) =
        some (.parameters 0x31 [0, 0, 64] 131) := by decide

theorem test_responseEnd :
    seen (exec .responseEnd (base.answered .ok [1])) (fun s => (s.port.phase, s.port.miso)) =
      some (.ignore none, some []) := by decide

theorem test_statusRead :
    seen (exec .statusRead (atPort noted))
        (fun s => (code s, (response s).map fun r => (r.2.length, r.2.take 12))) =
      some (some .ok, some (261, [0, 0, 0, 0, 4, 1, 1, 1, 31, 1, 2, 3])) := by decide +kernel

theorem test_stationRead :
    seen (exec (.stationRead 0 1) (atPort noted))
        (fun s => (response s).map fun r => (r.2.length, r.2.take 4, r.2.drop 78)) =
      some (some (92, [4, 0xFF, 32, 0], [0, 32, 1, 41, 0, 0, 0, 0, 0, 0, 0, 0, 0, 0])) := by
  decide +kernel

/-- A settle timer that has expired is stopped (R48) and reads so while its expiry waits. -/
theorem test_stationRead_expired :
    seen (exec (.stationRead 0 0) (atPort (noted.updFingering 0 fun g => { g with settle := .expired })))
        (fun s => (response s).map fun r => (r.2.drop 54).take 2) = some (some [0xFF, 0xFF])
      ∧ seen (exec (.stationRead 0 0)
          (atPort (noted.updFingering 0 fun g => { g with settle := .running 756 })))
        (fun s => (response s).map fun r => (r.2.drop 54).take 2) = some (some [0x02, 0xF4]) := by
  decide +kernel

/-- A WAVE_WRITE byte by byte: after its count byte of 2 the port expects seven parameter bytes. -/
theorem test_feedBytes :
    (feedBytes (atPort base) [0x31, 0, 0, 2, 1, 2, 3]).port.phase =
        .parameters 0x31 [0, 0, 2, 1, 2, 3] 7
      ∧ (feedBytes (atPort base) [0x31, 0, 0]).port.phase = .parameters 0x31 [0, 0] 3
      ∧ (feedBytes (atPort base) [0x05]).port.phase = .parameters 0x05 [] 1 := by decide +kernel

/-- Enable, follow, spread 1024, T5, C2, the rest as the defaults but for a gain of 0 and a cap below the reserve. -/
def setIn : StationSetParams :=
  ⟨0, 1, 1, 1024, 5, 2, 8, 0, 0, 64, 0, 0, 1023, 0, 32, 16, 0, 128, 4, 3, 0xF4, 16⟩

theorem test_stationSet :
    seen (exec (.stationSet setIn) (atPort base))
        (fun s => (code s, (s.station 0).settings)) =
      some (some .adjusted,
        { Settings.reset with
          spread := 1023, template := 5, chart := 2, gain := 0, reserve := 4, cap := 4
          transpose := -12 }) := by decide +kernel

/-- S0 taken out of use (section 7.10): its note ends and its voice releases. -/
theorem test_stationSet_disables :
    seen (exec (.stationSet { setIn with enable := 0, reserve := 0, cap := 32 }) (atPort noted))
        (fun s => ((s.station 0).state, s.note 0, (s.voice 0).state)) =
      some (.disabled, none, .releasing) := by decide +kernel

/-- A disable shows the station unsaturated at once (R119) and cuts the reply being sent (R136), after the
character that is in transmission. -/
theorem test_stationSet_disables_clip_and_reply :
    seen (exec (.stationSet { setIn with enable := 0 })
        (atPort { noted with audio := { noted.audio with clip := Vector.replicate 4 true } }))
        (fun s => (s.audio.clip.toList, (s.station 0).link.sending)) =
      some ([false, true, true, true], some ⟨⟨0x8D, 73, 12, 30⟩, 0, 0, some 41, true⟩) := by decide +kernel

/-- A cap lowered to 1 under two sounding voices (R101): V1 of the higher layer drains as an orphan. -/
theorem test_stationSet_lowers_the_cap :
    seen (exec (.stationSet { setIn with reserve := 0, cap := 1 })
        (atPort { withVoice 2 { Voice.free with state := .sounding, owner := some ⟨0, 7, 0⟩ }
          (withVoice 1 { Voice.free with state := .sounding, owner := some ⟨0, 7, 2⟩ } base) with
          freeList := [] }))
        (fun s => ((s.voice 1).state, (s.voice 1).owner, (s.voice 2).state, s.starve)) =
      some (.draining, none, .sounding, [⟨0, 7, 2⟩]) := by decide +kernel

theorem test_keysenseSet :
    seen (exec (.keysenseSet 0 #v[0xE4, 0, 0, 0, 0, 0, 0, 0x40]) (atPort base))
        (fun s => (code s, ((s.station 0).keySense.toList.take 5, (s.station 0).keySense[31]))) =
      some (some .ok, ([.ignore, .press, .release, .both, .ignore], .press)) := by decide +kernel

theorem test_stationRestart :
    seen (exec (.stationRestart 0) (atPort noted))
        (fun s => ((s.station 0).state, s.note 0, (s.station 0).link.bitTime,
          (s.station 0).link.windowOpen)) =
      some (.synced, none, some 41, true) := by decide +kernel

theorem test_panic :
    seen (exec .panic (atPort noted)) (fun s => (s.note 0, (s.voice 0).state, stationCount s 0)) =
      some (none, .draining, 0) := by decide +kernel

theorem test_chartRead :
    seen (exec (.chartRead 2 6) charted) response =
        some (some (.ok, [7, 0, 0, 0, 7, 0, 0, 0, 0, 73, 0xFF, 12, 1]))
      ∧ seen (exec (.chartRead 2 7) charted) code = some (some .range) := by decide +kernel

theorem test_chartAppend :
    seen (exec (.chartAppend 2 { entryIn with note := 200 }) charted)
        (fun s => (code s, s.charts.lengths[2], s.charts.freeCells, s.charts.edit.map Edit.work,
          s.charts.lists[2].length)) = some (some .adjusted, 8, 504, some 1, 7) := by decide +kernel

theorem test_chartInsert :
    seen (exec (.chartInsert 2 1 entryIn) charted)
        (fun s => (s.charts.edit.map Edit.work,
          (s.charts.edit.elim [] Edit.result).map fun e => e.gives.note)) =
      some (some 7, [62, 61, 64, 66, 67, 69, 71, 73]) := by decide +kernel

theorem test_chartReplace :
    seen (exec (.chartReplace 2 1 entryIn) charted)
        (fun s => (s.charts.edit.elim [] Edit.result).map fun e => e.gives.note) =
      some [62, 61, 66, 67, 69, 71, 73] := by decide +kernel

theorem test_chartRemove :
    seen (exec (.chartRemove 2 1) charted)
        (fun s => (s.charts.edit.map Edit.work, s.charts.lengths[2], s.charts.freeCells,
          (s.charts.edit.elim [] Edit.result).map fun e => e.gives.note)) =
      some (some 6, 6, 506, [62, 66, 67, 69, 71, 73]) := by decide +kernel

theorem test_chartClear :
    seen (exec (.chartClear 2) charted)
        (fun s => (s.charts.edit, s.charts.lengths[2], s.charts.freeCells)) =
      some (some ⟨2, 0x15, 7, []⟩, 0, 512) := by decide +kernel

theorem test_chartInfo :
    seen (exec .chartInfo editing) response =
      some (some (.ok, [0, 0, 8, 0, 0, 0, 0, 0, 1, 0xF8, 2, 0x11])) := by decide +kernel

theorem test_editCompletion :
    seen (exec (.editCompletion []) editing) (fun s => (s.charts.lists[2].length, s.charts.edit)) =
      some (8, none) := by decide +kernel

/-- The layer records of section 4.8 as sent. -/
def layer0 : LayerParams := ⟨4, 5, 0, 0, 200, 64, 0, 0, 512, 256⟩
def layer1 : LayerParams := ⟨9, 0xFF, 60, 3, 90, 64, 1, 0, 5000, 1024⟩

theorem test_templateSet :
    seen (exec (.templateSet 5 2 layer0 layer1 layer1)
        (atPort { withT5 base with templates := base.templates }))
        (fun s => (code s, s.templates[5])) =
      some (some .adjusted, [⟨4, some 5, tone0⟩, ⟨9, none, tone1⟩]) := by decide +kernel

theorem test_templateRead :
    seen (exec (.templateRead 5) (atPort (withT5 base))) response =
      some (some (.ok,
        [1, 2, 4, 5, 0, 0, 200, 64, 0, 0, 2, 0, 1, 0, 9, 0xFF, 48, 3, 90, 64, 1, 0, 0x0F, 0xFF, 4, 0,
          0, 0, 0, 0, 0, 0, 0, 0, 0, 0, 0, 0])) := by decide +kernel

theorem test_templateClear :
    seen (exec (.templateClear 5) (atPort (withT5 base))) (fun s => s.templates[5]) = some [] := by
  decide +kernel

theorem test_waveDefine :
    seen (exec (.waveDefine 31 0xF000 12) (atPort base)) (fun s => s.waves[31]) =
        some (some ⟨61440, 12⟩)
      ∧ seen (exec (.waveDefine 31 0xF001 12) (atPort base)) code = some (some .range) := by
  decide +kernel

theorem test_waveWrite :
    seen (exec (.waveWrite 0xFFFE 2 [0x1234, 0xFFFF]) (atPort base))
        (fun s => (code s, s.memory, s.memory.sample 65535)) =
      some (some .ok, [(196602, 0x12), (196603, 0x34), (196605, 0xFF), (196606, 0xFF)], -1) := by
  decide +kernel

theorem test_waveRead :
    seen (exec (.waveRead 4 1) (atPort { base with memory := [(12, 0x80), (14, 1)] })) response =
        some (some (.ok, [0x80, 0, 1]))
      ∧ seen (exec (.waveRead 4 65) (atPort base)) response = some (some (.range, [])) := by
  decide +kernel

/-- Steps 5 and 9 of section 4.8. -/
theorem test_waveDelete :
    seen (exec (.waveDelete 9) (atPort (withT5 base))) code = some (some .inUse)
      ∧ seen (exec (.waveDelete 9) (atPort { withT5 base with templates := base.templates }))
        (fun s => (code s, s.waves[9])) = some (some .ok, none) := by decide +kernel

theorem test_voiceRead :
    seen (exec (.voiceRead 0) (atPort noted))
        (fun s => (response s).map fun r => (r.2.length, r.2.take 12, r.2.drop 28)) =
      some (some (43, [1, 0xFF, 0, 1, 0, 0xFF, 0, 0, 0, 0, 4, 5],
        [0, 0x12, 0x40, 0x12, 0x40, 0x12, 0x40, 0, 0, 0, 0, 0, 0, 0, 0])) := by decide +kernel

/-- A capture with a record, and its count. -/
def withFault (count mask : Half) : State :=
  atPort { base with
    faults := ⟨some ⟨.audioClip, some 2, none, none, 1, 5000⟩, 0x80, count, 0x07FE, mask⟩ }

theorem test_faultRead :
    seen (exec .faultRead (withFault 42 0x200)) response =
      some (some (.ok,
        [1, 9, 2, 0xFF, 0, 0, 0, 0, 1, 0, 0, 0x13, 0x88, 0, 0x80, 0, 42, 7, 0xFE, 2, 0, 0, 0, 0, 0])) := by
  decide +kernel

/-- The clear race of section 9.9. -/
theorem test_faultClear :
    seen (exec (.faultClear 42) (withFault 43 0x200)) (fun s => (code s, s.faults.alert)) =
        some (some .stale, true)
      ∧ seen (exec (.faultClear 43) (withFault 43 0x200)) (fun s => (code s, s.faults)) =
        some (some .ok, ⟨none, 0, 43, 0x07FE, 0x200⟩) := by decide +kernel

theorem test_faultPolicy :
    seen (exec (.faultPolicy 0xFFFF 0x0200) (atPort base))
        (fun s => (code s, s.faults.enable, s.faults.mask)) =
      some (some .adjusted, 0x07FE, 0x0200) := by decide +kernel

/-- A held voice. -/
def held : State :=
  atPort { withVoice 0 { Voice.free with state := .faulted, owner := some ⟨0, 1, 0⟩ } base with
    freeList := (List.finRange 32).drop 1 }

theorem test_voiceRetire :
    seen (exec (.voiceRetire 0) held) (fun s => (code s, (s.voice 0).state, s.freeList.length)) =
        some (some .ok, .free, 32)
      ∧ seen (exec (.voiceRetire 1) held) code = some (some .notHeld) := by decide +kernel

/-- The levels of a line at this bit time that carry these bits, up to the middle of the last. -/
def lineOf (T : Nat) (bits : List Bool) : List Bool :=
  (bits.flatMap (List.replicate T)).take ((bits.length - 1) * T + T / 2 + 1)

/-- The row that gives these levels of S0's line. -/
def heard (levels : List Bool) : Instr := .character 0 levels [] [] []

/-- The levels of a whole character. -/
def charLine (T : Nat) (d : Byte) (mark stop : Bool) : List Bool :=
  lineOf T (false :: (List.range 8).map d.getLsbD ++ [mark, stop])

theorem test_character :
    seen (exec (heard (charLine 41 0x2D true true)) (playing none))
        (fun s => (s.station 0).link.assembly) = some (some ⟨.play, 13, 10, [0x2D]⟩)
      ∧ seen (exec (heard (charLine 41 0x33 true false)) (playing none))
        (fun s => ((s.station 0).link.counters.framing, s.faults.first.map FaultRecord.detail)) =
          some (1, some 0x133) := by decide +kernel

/-- A station with bit time 8 and its line at rest. -/
def atEight : State := (playing none).updLink 0 fun l => { l with bitTime := some 8 }

/-- The bits sampled so far, an edge that was no start bit, and a line held at 0 after a framing error. -/
theorem test_character_in_assembly :
    seen (exec (heard (lineOf 8 [false, true, false])) atEight)
        (fun s => (s.station 0).link.character) = some (.assembling 20 [false, true, false])
      ∧ seen (exec (.character 0 [false, false] [true, true] [] [true]) atEight)
        (fun s => (s.station 0).link.character) = some .absent
      ∧ seen (exec (heard (charLine 8 0 false false ++ List.replicate 300 false)) atEight)
        (fun s => ((s.station 0).link.character, (s.station 0).link.counters.framing, s.faults.count)) =
          some (.heldLow 4, 1, 1)
      ∧ seen (exec (heard (charLine 8 0 false false ++ List.replicate 8 true
            ++ charLine 8 0x2D true true)) atEight)
        (fun s => ((s.station 0).link.assembly, (s.station 0).link.counters.framing)) =
          some (some ⟨.play, 13, 10, [0x2D]⟩, 1) := by decide +kernel

/-- The HUSH of section 8.6 is accepted at its check character. -/
theorem test_character_completes :
    seen (exec (heard (charLine 41 0xCC false true))
        ((playing none).updLink 0 fun l =>
          { l with assembly := some ⟨.hush, 4, 2, [0x34]⟩, lastSeq := some 3 }))
        (fun s => ((s.station 0).link.buffer, (s.station 0).link.lastSeq)) =
      some (some ⟨4, .hush⟩, some 4) := by decide +kernel

/-- The rate of section 8.11.1. -/
theorem test_sync :
    seen (exec (.sync 0 [41, 41, 41, 41, 41, 41, 41, 41, 40] true) base)
        (fun s => ((s.station 0).link.bitTime, (s.station 0).syncHanded)) = some (some 41, true) := by
  decide +kernel

theorem test_syncTaken :
    seen (exec (.syncTaken 0) (noted.updStation 0 fun x => { x with syncHanded := true }))
        (fun s => ((s.station 0).state, s.note 0, (s.voice 0).state)) =
      some (.synced, none, .releasing) := by decide +kernel

theorem test_hello :
    seen (exec (.hello 0) (playing (some ⟨1, .hello 3 7 2⟩)))
        (fun s => ((s.station 0).state, (s.station 0).cls, (s.station 0).keyCount,
          (s.station 0).settings.chart)) = some (.calibrating, some 3, 7, 2) := by decide +kernel

theorem test_play :
    seen (exec (.play 0) (playing (playFrame 0 2900)))
        (fun s => ((s.station 0).breath.level, (s.note 0).map fun n => (n.number, n.tag),
          (s.voice 0).base, (s.station 0).link.sending.map Sending.reply)) =
      some (718, some (73, 1), 4672, some ⟨0x8D, 73, 12, 30⟩) := by decide +kernel

/-- A miss takes CHART_MISS with the snapshot as detail. -/
theorem test_play_misses :
    seen (exec (.play 0) (playing (playFrame 0x17 2900)))
        (fun s => (s.note 0, (s.station 0).fingering.misses, s.faults.first)) =
      some (none, 1, some ⟨.chartMiss, some 0, none, none, 0x17, 0⟩) := by decide +kernel

theorem test_hush :
    seen (exec (.hush 0) (noted.updLink 0 fun l => { l with buffer := some ⟨14, .hush⟩ }))
        (fun s => ((s.station 0).state, s.note 0, (s.station 0).breath.level, (s.voice 0).state)) =
      some (.live, none, 0, .releasing) := by decide +kernel

theorem test_replyEnd :
    seen (exec (.replyEnd 0) (noted.updLink 0 fun l => { l with waiting := some ⟨1, 2, 3, 4⟩ }))
        (fun s => ((s.station 0).link.sending, (s.station 0).link.waiting)) =
      some (some ⟨⟨1, 2, 3, 4⟩, 0, 0, some 41, false⟩, none) := by decide +kernel

/-- The line during the REPLY above (R152): 0x8D from bit 0 on with its mark bit 1, then the others with 0; cut after
its second character, the line is at 1 from bit time 22 on. -/
theorem test_replyLine :
    (noted.ltx 0).length = 44
      ∧ (noted.ltx 0).take 12 =
        [false, true, false, true, true, false, false, false, true, true, true, false]
      ∧ (List.range 24).map (fun n => (noted.updLink 0 fun l =>
            { l with sending := some ⟨⟨0x8D, 73, 12, 30⟩, 1, 0, some 41, true⟩ }).ltxLevel 0 n) =
          (noted.ltx 0).take 22 ++ [true, true]
      ∧ State.reset.ltxLevel 0 0 = true := by decide +kernel

/-- At bit time 41 a character lasts 451 MCLK periods (section 8.11.1): a bit time of the frame passes two periods, and a
whole frame 512; the last character ends after 1804 periods, and one that a disable lets end after its own 451. -/
theorem test_replyPlace :
    let x : Sending := ⟨⟨0x8D, 73, 12, 30⟩, 0, 450, some 41, false⟩
    let at450 := noted.updLink 0 fun l => { l with sending := some x }
    seen (step at450) (fun s => ((s.station 0).link.sending, at450.ltxNow 0, s.ltxNow 0)) =
        some (some { x with position := 1, elapsed := 1 }, true, false)
      ∧ seen (exec (.samplePeriod [] []) noted) (fun s => (s.station 0).link.sending) =
        some (some { x with position := 1, elapsed := 61 })
      ∧ x.pass 1353 = { x with position := 3, elapsed := 450 }
      ∧ x.pass 1354 = { x with position := 3, elapsed := 451 } ∧ x.pass 5000 = x.pass 1354
      ∧ { x with cut := true }.pass 5000 = { x with elapsed := 451, cut := true } := by decide +kernel

/-- The expiry of section 3.12, in another place of the chart: the note is retuned in LEGATO. -/
theorem test_settleExpiry :
    seen (exec (.settleExpiry 0)
        (noted.updFingering 0 fun g => { g with snapshot := 0x07, settle := .expired }))
        (fun s => ((s.note 0).map fun n => (n.number, n.tag), (s.voice 0).base,
          (s.station 0).fingering.settle)) = some (some (67, 1), 4288, .stopped) := by decide +kernel

theorem test_silenceTimeout :
    seen (exec (.silenceTimeout 0) (noted.updLink 0 fun l => { l with silence := .expired }))
        (fun s => ((s.station 0).state, s.faults.first)) =
      some (.lost, some ⟨.linkSilent, some 0, none, some 1, 4, 0⟩) := by decide +kernel

theorem test_samplePeriod :
    seen (exec (.samplePeriod [] []) noted)
        (fun s => (s.timebase, (s.voice 0).ampTarget, (s.voice 0).amp,
          (s.station 0).link.silence)) = some (1, 36032, 512, .running 1151) := by decide +kernel

/-- A frame after outputs of 0x5A0001 and −1 at S0: the frame-sync pulse and the first slots' bits; idle steps count
its bit times up to the last. -/
theorem test_tdm_bits :
    seen (exec (.samplePeriod [] [])
        { base with audio := { Audio.reset with outputs := #v[⟨0x5A0001, -1⟩, ⟨0, 0⟩, ⟨0, 0⟩, ⟨0, 0⟩] } })
        (fun s => (s.frameSync, (List.range 34).map (tdataBit s.audio.frame))) =
      some (true,
        [false, true, false, true, true, false, true, false] ++ List.replicate 15 false
          ++ [true] ++ List.replicate 8 false ++ [true, true])
      ∧ seen (step base) (fun s => (s.audio.position, s.frameSync, s.tdata)) = some (1, false, false)
      ∧ seen (step { base with audio := { Audio.reset with position := 255 } })
        (fun s => s.audio.position) = some 255 := by decide +kernel

/-- As in section 6.11: V0 is held and its slot served again with V1, whose turn in this period is past. -/
theorem test_samplePeriod_parity :
    seen (exec (.samplePeriod [1] []) { noted with memory := [(12290, 1)] })
        (fun s => ((s.voice 0).state, (s.voice 1).state, s.faults.first)) =
      some (.faulted, .sounding, some ⟨.waveParity, some 0, some 0, some 1, 0x41000, 1⟩) := by
  decide +kernel

/-- The glide of section 6.9. -/
theorem test_glideStep :
    seen (exec (.glideStep 0)
        ((noted.updStation 0 fun x => { x with settings := { x.settings with glide := 20 } }).updVoice 0
          fun y => { y with base := 4224, target := 4288, glide := .running 1 }))
        (fun s => ((s.voice 0).base, (s.voice 0).glide)) = some (4244, .advanced 48) := by
  decide +kernel

/-- A voice whose fade is reported, in this state. -/
def fading (state : VoiceState) : State :=
  { withVoice 0 { Voice.free with state := state, owner := some ⟨0, 9, 0⟩, completionDue := true } base with
    freeList := (List.finRange 32).drop 1 }

/-- A release reported at its end and overtaken by PANIC: the orphan has still to complete (R116). -/
theorem test_panic_overtakes_a_release :
    seen (exec .panic (atPort (fading .releasing))) (fun s =>
        ((s.voice 0).state, (s.voice 0).completionDue,
          seen (exec (.orphanDrainCompletion 0) s) fun t => (t.voice 0).state)) =
      some (.draining, false, some .draining) := by decide +kernel

theorem test_releaseCompletion :
    seen (exec (.releaseCompletion 0) (fading .releasing))
        (fun s => ((s.voice 0).state, s.freeList.getLast?)) = some (.free, some 0) := by decide +kernel

theorem test_orphanDrainCompletion :
    seen (exec (.orphanDrainCompletion 0) (fading .draining))
        (fun s => ((s.voice 0).state, s.freeList.getLast?)) = some (.free, some 0) := by decide +kernel

/-- S0's layer 1 waiting on V2 (R91). -/
def bound : State :=
  (withVoice 2 { Voice.free with state := .draining, completionDue := true, copy := some copy0 }
      { noted with claims := [⟨0, 1, 1, 2⟩], freeList := (List.finRange 32).drop 3 }).updNote 0 fun n =>
    { n with slots := [⟨0, copy0, .voiced 0⟩, ⟨1, copy1, .claiming 2⟩] }

theorem test_drainCompletion :
    seen (exec (.drainCompletion 2) bound)
        (fun s => ((s.voice 2).state, (s.voice 2).base, s.claims,
          (slotOf s 0 1 1).map Slot.state)) = some (.sounding, 7747, [], some (.voiced 2)) := by
  decide +kernel

/-! ### States that meet the statements' hypotheses

One theorem per statement, one conjunct per clause, at the edges of the clause's ranges where it has any. -/

theorem charted_ok : charted.charts.ok :=
  ⟨by decide, by decide, by decide, show ∀ c : ChartId, charted.charts.lengths[c] =
    charted.charts.lists[c].length by decide⟩

/-- The part after reset in this bit time of its frame. -/
def resetAt (position : Nat) : State := { State.reset with audio := { Audio.reset with position := position } }

theorem witness_StepTakesTheFrontCommand :
    ((resetAt 254).pending = [] ∧ (resetAt 254).audio.position < 255)
      ∧ (resetAt 255).pending = [] ∧ 255 ≤ (resetAt 255).audio.position := by decide +kernel

theorem witness_PowerOnStartsAndEndsTheClear : State.reset.clearRunning = true := rfl

theorem witness_PinResetKeepsTheStores :
    charted.charts.ok ∧ ({ charted with rstAsserted := true } : State).rstAsserted = true :=
  ⟨charted_ok, rfl⟩

theorem witness_ChipSelectEdges :
    (base.port.csLow = false ∧ base.rstAsserted = false ∧ base.port.awaitHigh = false)
      ∧ (({ base with rstAsserted := true } : State).port.csLow = false
        ∧ ({ base with rstAsserted := true } : State).rstAsserted = true)
      ∧ ((inParams 0x03 [0, 1] 27 base).port.csLow = true
        ∧ (inParams 0x03 [0, 1] 27 base).port.phase = .parameters 0x03 [0, 1] 27)
      ∧ ((atPort base).port.csLow = true
        ∧ ∀ cmd taken n, (atPort base).port.phase ≠ .parameters cmd taken n) :=
  ⟨by decide, by decide, ⟨rfl, rfl⟩, rfl, fun _ _ _ h => by cases h⟩

theorem witness_PortTakesItsBytes :
    ((atPort base).port.phase = .command ∧ (atPort base).clearRunning = false
        ∧ paramCount 0x05 = some 1)
      ∧ ((inParams 0x02 [] 2 base).port.phase = .parameters 0x02 [] 2
        ∧ ([] : List Byte).length + 1 < 2 ∧ (0x02 : Byte) ≠ 0x31)
      ∧ ((inParams 0x31 [0, 0] 3 base).port.phase = .parameters 0x31 [0, 0] 3
        ∧ 1 ≤ (1 : Byte).toNat ∧ (64 : Byte).toNat ≤ 64)
      ∧ (paramCount 0x00 = none ∧ paramCount 0x54 = none)
      ∧ ((atPort State.reset).port.phase = .command ∧ (atPort State.reset).clearRunning = true)
      ∧ (base.answered .ok []).port.phase = .response .ok []
      ∧ (base.port.phase = .idle ∧ (setPhase base (.ignore none)).port.phase = .ignore none
        ∧ (setPhase base (.ignore (some .unknown))).port.phase = .ignore (some .unknown))
      ∧ (List.replicate 8 true).length = 8 := by decide

theorem witness_NoCommandStopsThePart :
    ((wireOf .panic).isSome = true ∧ portTakes base .panic = false)
      ∧ (State.reset.clearRunning = true ∧ (atPort State.reset).port.phase = .command) := by decide

theorem witness_ByteByByteReachesTheCommand :
    ((atPort base).port.phase = .command ∧ (atPort base).clearRunning = false)
      ∧ (Instr.wellFormed .panic = true ∧ wireOf .panic = some (0x06, []))
      ∧ ((Instr.waveWrite 0 64 (List.replicate 64 0)).wellFormed = true
        ∧ (wireOf (.waveWrite 0 64 (List.replicate 64 0))).isSome = true)
      ∧ (Instr.waveWrite 0 65 []).wellFormed = true
      ∧ ([0x06] : List Byte) = [] ++ 0x06 :: [] ∧ ([0x05, 3] : List Byte) = [0x05] ++ 3 :: []
      ∧ ([0x05, 3] : List Byte) = [] ++ 0x05 :: [3] := by decide

theorem witness_NumbersThatNameNothingAreRefused :
    (4 ≤ (4 : Byte).toNat ∧ portTakes (atPort base) (.stationRestart 4) = true)
      ∧ (8 ≤ (8 : Byte).toNat ∧ (atPort base).charts.edit = none
        ∧ portTakes (atPort base) (.chartClear 8) = true)
      ∧ (16 ≤ (16 : Byte).toNat ∧ portTakes (atPort base) (.templateClear 16) = true)
      ∧ (32 ≤ (32 : Byte).toNat ∧ portTakes (atPort base) (.voiceRetire 32) = true
        ∧ portTakes (atPort base) (.waveDelete 0xFF) = true) := by decide

theorem witness_StatusReadRecord : portTakes (atPort noted) .statusRead = true := by decide +kernel

theorem witness_StationReadRecord :
    ((3 : Byte).toNat = (3 : StationId).val ∧ portTakes (atPort base) (.stationRead 3 1) = true)
      ∧ (portTakes (atPort noted) (.stationRead 0 0) = true
        ∧ ((atPort noted).station 0).fingering.current.isSome = true
        ∧ ((atPort noted).note 0).isSome = true)
      ∧ (atPort base).note 3 = none := by decide +kernel

theorem witness_VoiceReadRecord :
    ((31 : Byte).toNat = (31 : VoiceId).val ∧ portTakes (atPort base) (.voiceRead 31) = true
        ∧ ((atPort base).voice 31).state = .free)
      ∧ ((noted.voice 0).state = .sounding ∧ (noted.voice 0).copy.isSome = true
        ∧ (noted.voice 0).owner.isSome = true)
      ∧ ((held.voice 0).state = .faulted
        ∧ ((withVoice 0 { Voice.free with state := .faulted } held).voice 0).owner = none)
      ∧ ((bound.voice 2).state = .draining ∧ (claimOf bound 2).isSome = true)
      ∧ (((fading .draining).voice 0).state = .draining ∧ claimOf (fading .draining) 0 = none) := by
  decide +kernel

theorem witness_FaultReadRecord :
    (portTakes (withFault 42 0) .faultRead = true ∧ (withFault 42 0).faults.first.isSome = true)
      ∧ (portTakes (atPort base) .faultRead = true ∧ (atPort base).faults.first = none) := by decide

/-- STATION_SET of S0 at the edges that are accepted. -/
def edgeIn : StationSetParams :=
  { setIn with template := 15, chart := 7, reserve := 32, cap := 32, spread := 1023 }

theorem witness_StationSetStoresTheSettings :
    edgeIn.station.toNat = (0 : StationId).val ∧ edgeIn.template.toNat = (15 : TemplateId).val
      ∧ edgeIn.chart.toNat = (7 : ChartId).val ∧ edgeIn.reserve.toNat + otherReserves charted 0 ≤ 32
      ∧ portTakes charted (.stationSet edgeIn) = true := by decide +kernel

theorem witness_StationSetTestsAndClamps :
    (16 ≤ ({ edgeIn with template := 16 } : StationSetParams).template.toNat
        ∧ portTakes charted (.stationSet { edgeIn with template := 16 }) = true)
      ∧ (32 < ({ edgeIn with reserve := 33 } : StationSetParams).reserve.toNat + otherReserves charted 0
        ∧ portTakes charted (.stationSet { edgeIn with reserve := 33 }) = true)
      ∧ (edgeIn.template.toNat < 16 ∧ edgeIn.chart.toNat < 8
        ∧ edgeIn.reserve.toNat + otherReserves charted 0 ≤ 32
        ∧ portTakes charted (.stationSet edgeIn) = true) := by decide +kernel

/-- A part whose station 0 is DISABLED. -/
def disabledPart : State :=
  atPort (withStation
    { Station.reset with state := .disabled, settings := { Settings.reset with enable := false } } base)

theorem noted_rests : (noted.station 0).restOk := by unfold Station.restOk; decide +kernel

/-- A disable that leaves reserve and cap of S0 as they are. -/
def keptIn : StationSetParams := { setIn with enable := 0, reserve := 0, cap := 32 }

/-- As `noted`, its reply cut short after its character n, which is over. -/
def cutOff (n : Nat) : State :=
  noted.updLink 0 fun l => { l with sending := some ⟨⟨0x8D, 73, 12, 30⟩, n, 451, some 41, true⟩ }

theorem witness_DisableAndEnable :
    (portTakes (atPort noted) (.stationSet { edgeIn with enable := 0 }) = true
        ∧ edgeIn.reserve.toNat + otherReserves (atPort noted) 0 ≤ 32
        ∧ ((atPort noted).station 0).settings.enable = true)
      ∧ (noted.station 0).restOk
      ∧ (keptIn.reserve.toNat = ((atPort noted).station 0).settings.reserve
        ∧ (seen (exec (.stationSet keptIn) (atPort noted)) fun s => (s.station 0).settings.cap) =
            some ((atPort noted).station 0).settings.cap)
      ∧ (portTakes disabledPart (.stationSet edgeIn) = true
        ∧ edgeIn.reserve.toNat + otherReserves disabledPart 0 ≤ 32
        ∧ (disabledPart.station 0).settings.enable = false ∧ edgeIn.enable.toNat ≠ 0
        ∧ (disabledPart.station 0).stall = none) :=
  ⟨by decide +kernel, noted_rests, by decide +kernel, by decide +kernel, by decide +kernel⟩

theorem witness_LoweredSettingsActAtOnce :
    portTakes (atPort noted) (.stationSet edgeIn) = true
      ∧ edgeIn.reserve.toNat + otherReserves (atPort noted) 0 ≤ 32
      ∧ ((atPort noted).station 0).settings.enable = decide (edgeIn.enable.toNat ≠ 0)
      ∧ ((atPort noted).station 0).stall = none := by decide +kernel

theorem witness_KeysenseSetReplacesTheTable :
    (3 : Byte).toNat = (3 : StationId).val
      ∧ portTakes (atPort base) (.keysenseSet 3 (Vector.replicate 8 0xE4)) = true := by decide +kernel

/-- Station 0 in a state outside LIVE. -/
def resting (x : StationState) : State := atPort (withStation { Station.reset with state := x } base)

theorem witness_StationRestartByState :
    (portTakes disabledPart (.stationRestart 0) = true ∧ (disabledPart.station 0).state = .disabled)
      ∧ (portTakes (resting .synced) (.stationRestart 0) = true
        ∧ ((resting .synced).station 0).state = .synced)
      ∧ (portTakes (atPort noted) (.stationRestart 0) = true ∧ (noted.station 0).state = .live)
      ∧ (noted.station 0).restOk
      ∧ (portTakes (resting .lost) (.stationRestart 0) = true
        ∧ ((resting .lost).station 0).state = .lost)
      ∧ ((resting .lost).station 0).restOk :=
  ⟨by decide +kernel, by decide +kernel, by decide +kernel, noted_rests, by decide +kernel,
    by unfold Station.restOk; decide +kernel⟩

theorem witness_PanicDrainsThePool :
    portTakes (atPort noted) .panic = true
      ∧ (portTakes (atPort bound) .panic = true ∧ ((atPort bound).voice 2).state = .draining
        ∧ (claimOf (atPort bound) 2).isSome = true ∧ ((atPort bound).voice 2).completionDue = true)
      ∧ (portTakes (atPort (fading .releasing)) .panic = true
        ∧ ((atPort (fading .releasing)).voice 0).state = .releasing
        ∧ ((atPort (fading .releasing)).voice 0).completionDue = true) := by decide +kernel

theorem passes_entryIn : EntryPasses entryIn := by unfold EntryPasses; decide

/-- A pattern with a key outside its mask. -/
def entryBad : EntryParams := { entryIn with mask := 0x3F }

theorem witness_ChartCommandRefusals :
    (editing.charts.edit ≠ none ∧ portTakes editing (.chartAppend 0 entryIn) = true
        ∧ portTakes editing (.chartRead 0 0) = true)
      ∧ (charted.charts.edit = none ∧ charted.charts.lengths[2] < (8 : Byte).toNat
        ∧ portTakes charted (.chartInsert 2 8 entryIn) = true
        ∧ charted.charts.lengths[2] ≤ (7 : Byte).toNat
        ∧ portTakes charted (.chartRemove 2 7) = true)
      ∧ (¬ EntryPasses entryBad ∧ portTakes charted (.chartReplace 2 0 entryBad) = true)
      ∧ EntryPasses entryIn
      ∧ (full.charts.edit = none ∧ 128 ≤ full.charts.lengths[0]
        ∧ portTakes full (.chartAppend 0 entryIn) = true
        ∧ (128 : Byte).toNat ≤ full.charts.lengths[0]
        ∧ portTakes full (.chartInsert 0 128 entryIn) = true) :=
  ⟨by decide +kernel, by decide +kernel, by unfold EntryPasses; decide +kernel, passes_entryIn,
    by decide +kernel⟩

theorem witness_ChartAppendAndInsertEffect :
    charted.charts.ok ∧ EntryPasses entryIn
      ∧ (charted.charts.edit = none ∧ charted.charts.lengths[2] < 128 ∧ 0 < charted.charts.freeCells
        ∧ portTakes charted (.chartAppend 2 entryIn) = true)
      ∧ (portTakes charted (.chartInsert 2 0 entryIn) = true
        ∧ portTakes charted (.chartInsert 2 7 entryIn) = true
        ∧ (7 : Byte).toNat ≤ charted.charts.lengths[2])
      ∧ (portTakes charted (.chartInsert 2 8 entryIn) = true
        ∧ charted.charts.lengths[2] < (8 : Byte).toNat)
      ∧ EntryClamps { entryIn with note := 128 } ∧ ¬ EntryClamps { entryIn with note := 127, step := 24 } :=
  ⟨charted_ok, passes_entryIn, by decide +kernel, by decide +kernel, by decide +kernel,
    by unfold EntryClamps; decide, by unfold EntryClamps; decide⟩

theorem witness_ChartReplaceRemoveAndClearEffect :
    charted.charts.ok ∧ EntryPasses entryIn
      ∧ (charted.charts.edit = none ∧ (6 : Byte).toNat < charted.charts.lengths[2]
        ∧ portTakes charted (.chartReplace 2 6 entryIn) = true
        ∧ portTakes charted (.chartRemove 2 6) = true ∧ portTakes charted (.chartClear 2) = true)
      ∧ (charted.charts.lengths[2] ≤ (7 : Byte).toNat
        ∧ portTakes charted (.chartReplace 2 7 entryIn) = true
        ∧ portTakes charted (.chartRemove 2 7) = true)
      ∧ (portTakes charted (.chartClear 0) = true ∧ charted.charts.lengths[0] = 0) :=
  ⟨charted_ok, passes_entryIn, by decide +kernel, by decide +kernel, by decide +kernel⟩

/-- An edit of C2 in flight and S0 stalled on it with this work. -/
def stalledBy (w : StallWork) : State :=
  editing.updStation 0 fun _ => { live none with stall := some w }

theorem witness_EditCompletionSwapsTheList :
    (∃ e, editing.charts.edit = some e) ∧ (∀ i : StationId, (editing.station i).stall = none)
      ∧ ((stalledBy (.frame 13)).charts.edit.isSome = true
        ∧ ((stalledBy (.frame 13)).station 0).stall = some (.frame 13)
        ∧ ((stalledBy .expiry).station 0).stall = some .expiry
        ∧ ((stalledBy .expiry).station 1).stall = none)
      ∧ ([3, 0] : List StationId).Nodup :=
  ⟨Option.isSome_iff_exists.mp (by decide +kernel), by decide +kernel, by decide +kernel, by decide⟩

theorem witness_ChartReadsReturnTheStore :
    (portTakes editing (.chartRead 2 0) = true ∧ editing.charts.edit ≠ none)
      ∧ (portTakes charted (.chartRead 8 0) = true ∧ charted.charts.edit = none
        ∧ 8 ≤ (8 : Byte).toNat)
      ∧ charted.charts.ok
      ∧ (portTakes charted (.chartRead 2 7) = true ∧ charted.charts.lengths[2] ≤ (7 : Byte).toNat)
      ∧ charted.charts.lists[2][(6 : Byte).toNat]? = some (entry 0x07 0x00 73 none true)
      ∧ portTakes charted .chartInfo = true :=
  ⟨by decide +kernel, by decide +kernel, charted_ok, by decide +kernel, by decide +kernel,
    by decide +kernel⟩

theorem witness_LookupFindsTheFirstFit :
    lookup chartC2 0x17 = none ∧ lookup chartC2 0x23 = some ⟨69, some 6, 12, false⟩ := by decide

/-- The part with W4, W5, W9 and T5, a command byte next. -/
def waved : State := atPort (withT5 base)

theorem witness_TemplateSetDefines :
    ((15 : Byte).toNat = (15 : TemplateId).val
        ∧ portTakes waved (.templateSet 15 4 layer0 layer1 layer1) = true ∧ 3 < (4 : Byte).toNat)
      ∧ (∃ l ∈ [layer0, layer0, layer1].take (1 : Byte).toNat, ¬ WavesPass (atPort base) l)
      ∧ (∀ l ∈ [layer0, layer1, layer1].take (3 : Byte).toNat, WavesPass waved l)
      ∧ (LayerAdjusts layer1 ∧ ¬ LayerAdjusts layer0) := by
  refine ⟨by decide +kernel, ⟨layer0, List.Mem.head _, ?_⟩, ?_, by unfold LayerAdjusts; decide⟩
  · rintro ⟨⟨a, -, h⟩, -⟩
    exact h ((by decide +kernel : ∀ a : WaveId, (atPort base).waves[a] = none) a)
  · intro l h
    have h0 : WavesPass waved layer0 :=
      ⟨⟨4, rfl, by decide +kernel⟩, Or.inr ⟨5, rfl, by decide +kernel⟩⟩
    have h1 : WavesPass waved layer1 := ⟨⟨9, rfl, by decide +kernel⟩, Or.inl rfl⟩
    have h' : l = layer0 ∨ l = layer1 ∨ l = layer1 := by
      simpa [show (3 : Byte).toNat = 3 from rfl] using h
    rcases h' with rfl | rfl | rfl
    · exact h0
    · exact h1
    · exact h1

theorem witness_TemplateReadAndClear :
    (5 : Byte).toNat = (5 : TemplateId).val ∧ portTakes waved (.templateRead 5) = true
      ∧ waved.templates[5].length ≤ 3 ∧ portTakes waved (.templateClear 5) = true := by
  decide +kernel

theorem witness_WaveDefineAndDelete :
    ((12 : Byte).toNat ≤ 12 ∧ (0xF000 : Half).toNat + 2 ^ (12 : Byte).toNat ≤ 65536
        ∧ portTakes waved (.waveDefine 4 0xF000 12) = true)
      ∧ (12 < (13 : Byte).toNat ∧ portTakes waved (.waveDefine 4 0 13) = true)
      ∧ (65536 < (0xFF01 : Half).toNat + 2 ^ (8 : Byte).toNat
        ∧ portTakes waved (.waveDefine 4 0xFF01 8) = true)
      ∧ (waved.waves[4] ≠ none ∧ portTakes waved (.waveDelete 4) = true) ∧ RefersTo waved 4
      ∧ (waved.waves[6] = none ∧ portTakes waved (.waveDelete 6) = true) :=
  ⟨by decide +kernel, by decide +kernel, by decide +kernel, by decide +kernel,
    Or.inl ⟨5, _, List.Mem.head _, Or.inl rfl⟩, by decide +kernel⟩

theorem witness_WaveRunsAreWrittenAndRead :
    ((Instr.waveWrite 0 0 []).wellFormed = true ∧ portTakes (atPort base) (.waveWrite 0 0 []) = true
        ∧ (0 : Byte).toNat = 0)
      ∧ (portTakes (atPort base) (.waveWrite 0 65 []) = true ∧ 64 < (65 : Byte).toNat)
      ∧ (portTakes (atPort base) (.waveWrite 0xFFFF 2 [1, 2]) = true
        ∧ 65536 < (0xFFFF : Half).toNat + (2 : Byte).toNat)
      ∧ MemoryOk (atPort base)
      ∧ ((Instr.waveWrite 0xFFFF 1 [1]).wellFormed = true
        ∧ portTakes (atPort base) (.waveWrite 0xFFFF 1 [1]) = true
        ∧ (0xFFFF : Half).toNat + (1 : Byte).toNat ≤ 65536)
      ∧ (portTakes (atPort base) (.waveWrite 0xFFC0 64 (List.replicate 64 7)) = true
        ∧ (0xFFC0 : Half).toNat + (64 : Byte).toNat ≤ 65536)
      ∧ (portTakes (atPort base) (.waveRead 0 65) = true ∧ 64 < (65 : Byte).toNat)
      ∧ (portTakes (atPort base) (.waveRead 0xFFFF 2) = true
        ∧ 65535 < (0xFFFF : Half).toNat + (2 : Byte).toNat - 1)
      ∧ (portTakes (atPort base) (.waveRead 0xFFFF 1) = true
        ∧ (0xFFFF : Half).toNat + (1 : Byte).toNat - 1 ≤ 65535) := by
  unfold MemoryOk; decide +kernel

/-! #### The voice pool -/

/-- A voice of station i's note in this state. -/
def owned (state : VoiceState) (i : StationId) (tag : Nat) (layer : LayerId) : Voice :=
  { Voice.free with
    state := state, owner := some ⟨i, tag, layer⟩, copy := some copy0, outStation := some i }

/-- The pool without a free voice: V1 and V2 as given, the others in no tier. -/
def crowded (x y : Voice) : State := withVoice 2 y (withVoice 1 x { base with freeList := [] })

theorem crowded_others (x y : Voice) (w : VoiceId) (h1 : w ≠ 1) (h2 : w ≠ 2) :
    (crowded x y).voice w = Voice.free := by
  have h : ∀ w : VoiceId, w ≠ 1 → w ≠ 2 → (crowded x y).voices[w] = Voice.free := by
    intro w h1 h2
    have e1 : (1 : Nat) ≠ w.val := fun e => h1 (Fin.ext e.symm)
    have e2 : (2 : Nat) ≠ w.val := fun e => h2 (Fin.ext e.symm)
    simp [crowded, withVoice, State.updVoice, base, State.reset, e1, e2]
  exact h w h1 h2

/-- Only V1 and V2 of a crowded pool are in a tier. -/
theorem crowded_cases {x y : Voice} {w : VoiceId} {st : VoiceState}
    (h : ((crowded x y).voice w).state = st) (hst : st ≠ .free) : w = 1 ∨ w = 2 := by
  by_cases h1 : w = 1
  · exact Or.inl h1
  by_cases h2 : w = 2
  · exact Or.inr h2
  rw [crowded_others x y w h1 h2] at h
  exact absurd h.symm hst

/-- S0's own releasing V1 and V2, V1 the older by its number. -/
def poolA : State := crowded (owned .releasing 0 9 0) (owned .releasing 0 9 1)
/-- S1's releasing V1, S1 over its reserve of 0. -/
def poolB : State := crowded (owned .releasing 1 9 0) Voice.free
/-- S0's sounding V1 of layer 2 under its own note. -/
def poolC : State := crowded (owned .sounding 0 7 2) Voice.free
/-- S1's sounding V1 while S0 is under its reserve. -/
def poolD : State :=
  (crowded (owned .sounding 1 9 0) Voice.free).updStation 0 fun x =>
    { x with settings := { x.settings with reserve := 2 } }

theorem victim_of_tier_a : VictimOf poolA 0 7 0 1 := by
  refine Or.inl ⟨⟨rfl, _, rfl, rfl⟩, fun w hw hne => ?_⟩
  rcases crowded_cases hw.1 (by decide) with rfl | rfl
  · exact absurd rfl hne
  · exact Or.inr ⟨by decide +kernel, by decide⟩

theorem poolB_only {w : VoiceId} (h : (poolB.voice w).state = .releasing) : w = 1 := by
  rcases crowded_cases h (by decide) with rfl | rfl
  · rfl
  · exact absurd h (by decide +kernel)

theorem victim_of_tier_b : VictimOf poolB 0 7 0 1 := by
  refine Or.inr (Or.inl ⟨fun w hw => ?_, by decide +kernel,
    ⟨⟨rfl, _, rfl, by decide, by decide +kernel⟩, fun w hw hne => absurd (poolB_only hw.1) hne⟩⟩)
  obtain rfl := poolB_only hw.1
  obtain ⟨o, ho, hi⟩ := hw.2
  cases ho
  exact absurd hi (by decide)

theorem poolC_none (w : VoiceId) : (poolC.voice w).state ≠ .releasing := by
  intro h
  rcases crowded_cases h (by decide) with rfl | rfl
  · exact absurd h (by decide +kernel)
  · exact absurd h (by decide +kernel)

theorem victim_of_tier_c : VictimOf poolC 0 7 0 1 := by
  refine Or.inr (Or.inr (Or.inl ⟨fun w hw => poolC_none w hw.1, fun _ w hw => poolC_none w hw.1,
    ⟨⟨rfl, _, rfl, rfl, rfl, by decide⟩, fun w hw hne => ?_⟩⟩))
  rcases crowded_cases hw.1 (by decide) with rfl | rfl
  · exact absurd rfl hne
  · exact absurd hw.1 (by decide +kernel)

theorem poolD_none (w : VoiceId) : (poolD.voice w).state ≠ .releasing := by
  intro h
  rcases crowded_cases (x := owned .sounding 1 9 0) (y := Voice.free) (w := w) h (by decide)
    with rfl | rfl
  · exact absurd h (by decide +kernel)
  · exact absurd h (by decide +kernel)

theorem poolD_only {w : VoiceId} (h : (poolD.voice w).state = .sounding) : w = 1 := by
  rcases crowded_cases (x := owned .sounding 1 9 0) (y := Voice.free) (w := w) h (by decide)
    with rfl | rfl
  · rfl
  · exact absurd h (by decide +kernel)

theorem victim_of_tier_d : VictimOf poolD 0 7 0 1 := by
  refine Or.inr (Or.inr (Or.inr ⟨fun w hw => poolD_none w hw.1, by decide +kernel,
    fun w hw => poolD_none w hw.1, fun w hw => ?_,
    ⟨⟨by decide +kernel, rfl, _, rfl, by decide, by decide +kernel⟩,
      fun w hw hne => absurd (poolD_only hw.2.1) hne⟩⟩))
  obtain rfl := poolD_only hw.1
  obtain ⟨o, ho, hi, -⟩ := hw.2
  cases ho
  exact absurd hi (by decide)

/-- No free voice and no voice in a tier. -/
def noVoices : State := crowded Voice.free Voice.free

theorem noVoices_free (w : VoiceId) : (noVoices.voice w).state = .free :=
  (by decide +kernel : ∀ w : VoiceId, (noVoices.voice w).state = .free) w

theorem no_victim (v : VoiceId) : ¬ VictimOf noVoices 0 7 0 v := by
  have h1 : (noVoices.voice v).state ≠ .releasing := by rw [noVoices_free]; decide
  have h2 : (noVoices.voice v).state ≠ .sounding := by rw [noVoices_free]; decide
  rintro (h | h | h | h)
  · exact h1 h.1.1
  · exact h1 h.2.2.1.1
  · exact h2 h.2.2.1.1
  · exact h2 h.2.2.2.2.1.2.1

/-- One free voice that the others' reserves of 1 keep out of S0's reach (R84). -/
def oneReserved : State :=
  { base with freeList := [31] }.updStation 3 fun x =>
    { x with settings := { x.settings with reserve := 1 } }

/-- V1 and V2 as given and counted to S0, whose cap is 1, with these claims. -/
def overCap (x y : Voice) (claims : List Claim) : State :=
  (withVoice 2 y (withVoice 1 x
      { base with
        freeList := (List.finRange 32).filter fun v => v ≠ 1 ∧ v ≠ 2, claims := claims })).updStation 0
    fun st => { st with settings := { st.settings with cap := 1 } }

/-- S0 over its cap with two releasing voices, V1 to go first; with two sounding ones, V1 of the higher layer; and
with two bound drains, the claim on V2 made last. -/
def overA : State := overCap (owned .releasing 0 9 0) (owned .releasing 0 9 1) []
def overB : State := overCap (owned .sounding 0 7 2) (owned .sounding 0 7 1) []
def overC : State :=
  overCap { Voice.free with state := .draining } { Voice.free with state := .draining }
    [⟨0, 7, 0, 1⟩, ⟨0, 7, 1, 2⟩]

theorem over_pool : PoolOk overA ∧ PoolOk overB ∧ PoolOk overC :=
  ⟨⟨by decide +kernel, by decide +kernel, by decide +kernel, by decide +kernel⟩,
    ⟨by decide +kernel, by decide +kernel, by decide +kernel, by decide +kernel⟩,
    ⟨by decide +kernel, by decide +kernel, by decide +kernel, by decide +kernel⟩⟩

theorem overA_releasing : ∀ w : VoiceId, (overA.voice w).state = .releasing → w = 1 ∨ w = 2 := by
  decide +kernel

theorem overB_sounding : ∀ w : VoiceId, (overB.voice w).state = .sounding → w = 1 ∨ w = 2 := by
  decide +kernel

theorem overA_first : FirstIn (OwnedIn overA 0 .releasing) (ReleasedBefore overA) 1 := by
  refine ⟨⟨by decide +kernel, _, rfl, rfl⟩, fun w hw hne => ?_⟩
  rcases overA_releasing w hw.1 with rfl | rfl
  · exact absurd rfl hne
  · exact Or.inr ⟨by decide +kernel, by decide⟩

theorem overB_first : FirstIn (OwnedIn overB 0 .sounding) (LayerBefore overB) 1 := by
  refine ⟨⟨by decide +kernel, _, rfl, rfl⟩, fun w hw hne => ?_⟩
  rcases overB_sounding w hw.1 with rfl | rfl
  · exact absurd rfl hne
  · intro o p ho hp
    have ho : some ⟨0, 7, 2⟩ = some o := ho
    have hp : some ⟨0, 7, 1⟩ = some p := hp
    cases ho; cases hp
    exact Or.inl (by decide)

theorem witness_StationSetActsInItsOrder :
    (portTakes charted (.stationSet edgeIn) = true
        ∧ edgeIn.reserve.toNat + otherReserves charted 0 ≤ 32 ∧ charted.charts.busy 7 = false)
      ∧ (portTakes editing (.stationSet setIn) = true ∧ setIn.chart.toNat = 2
        ∧ editing.charts.busy 2 = true)
      ∧ ((noted.station 0).settings.enable = true ∧ (disabledPart.station 0).settings.enable = false)
      ∧ stationCount base 0 ≤ (base.station 0).settings.cap
      ∧ ((overA.station 0).settings.cap < stationCount overA 0
        ∧ (overB.station 0).settings.cap < stationCount overB 0
        ∧ (overC.station 0).settings.cap < stationCount overC 0)
      ∧ (PoolOk overA ∧ PoolOk overB ∧ PoolOk overC)
      ∧ FirstIn (OwnedIn overA 0 .releasing) (ReleasedBefore overA) 1
      ∧ (NoneIn (OwnedIn overB 0 .releasing)
        ∧ FirstIn (OwnedIn overB 0 .sounding) (LayerBefore overB) 1
        ∧ (overB.voice 1).owner = some ⟨0, 7, 2⟩)
      ∧ (NoneIn (OwnedIn overC 0 .releasing) ∧ NoneIn (OwnedIn overC 0 .sounding)
        ∧ overC.claims = [⟨0, 7, 0, 1⟩] ++ ⟨0, 7, 1, 2⟩ :: [])
      ∧ (noVoices.freeList = [] ∧ ¬ PassesFreeTest oneReserved 0 oneReserved.freeList.length
        ∧ PassesFreeTest base 0 base.freeList.length) := by
  have none : ∀ (s : State) (st : VoiceState), (∀ w : VoiceId, (s.voice w).state ≠ st) →
      NoneIn (OwnedIn s 0 st) := fun s st h w hw => h w hw.1
  exact ⟨by decide +kernel, by decide +kernel, by decide +kernel, by decide +kernel,
    by decide +kernel, over_pool, overA_first,
    ⟨none _ _ (by decide +kernel), overB_first, by decide +kernel⟩,
    ⟨none _ _ (by decide +kernel), none _ _ (by decide +kernel), rfl⟩,
    rfl, by unfold PassesFreeTest; decide +kernel, by unfold PassesFreeTest; decide +kernel⟩

theorem witness_ClaimsAreServed :
    (base.freeList = 0 :: (List.finRange 32).drop 1 ∧ PassesFreeTest base 0 base.freeList.length)
      ∧ ¬ PassesFreeTest oneReserved 0 oneReserved.freeList.length
      ∧ (poolA.freeList = [] ∧ VictimOf poolA 0 7 0 1)
      ∧ (poolB.freeList = [] ∧ VictimOf poolB 0 7 0 1)
      ∧ (poolC.freeList = [] ∧ VictimOf poolC 0 7 0 1)
      ∧ (poolD.freeList = [] ∧ VictimOf poolD 0 7 0 1)
      ∧ (noVoices.freeList = [] ∧ ∀ v, ¬ VictimOf noVoices 0 7 0 v)
      ∧ ∃ x, slotOf noted 0 1 0 = some x :=
  ⟨⟨by decide +kernel, by unfold PassesFreeTest; decide +kernel⟩,
    by unfold PassesFreeTest; decide +kernel, ⟨rfl, victim_of_tier_a⟩, ⟨rfl, victim_of_tier_b⟩,
    ⟨rfl, victim_of_tier_c⟩, ⟨rfl, victim_of_tier_d⟩, ⟨rfl, no_victim⟩,
    Option.isSome_iff_exists.mp (by decide +kernel)⟩

theorem witness_CompletionsAreActedOn :
    (((fading .releasing).voice 0).state = .releasing
        ∧ ((fading .releasing).voice 0).completionDue = true)
      ∧ (((fading .draining).voice 0).state = .draining ∧ claimOf (fading .draining) 0 = none
        ∧ ((fading .draining).voice 0).completionDue = true)
      ∧ (portTakes held (.voiceRetire 0) = true ∧ (held.voice 0).state = .faulted
        ∧ portTakes held (.voiceRetire 31) = true ∧ (held.voice 31).state ≠ .faulted)
      ∧ ((bound.voice 2).state = .draining ∧ claimOf bound 2 = some ⟨0, 1, 1, 2⟩
        ∧ (bound.voice 2).completionDue = true) := by decide +kernel

theorem witness_NoteOffLetsTheVoicesGo :
    base.note 0 = none ∧ (∃ n, noted.note 0 = some n)
      ∧ ((noted.note 0).any fun n => n.slots.any fun x => decide (x.state = .voiced 0)) = true
      ∧ (noted.voice 0).state = .sounding :=
  ⟨by decide +kernel, Option.isSome_iff_exists.mp (by decide +kernel), by decide +kernel,
    by decide +kernel⟩

/-- Station 0's note with one slot on these states, under EXCESS or not. -/
def slotted (x : SlotState) (c : LayerCopy) (excess : Bool) : State :=
  (bound.updNote 0 fun n => { n with slots := [⟨1, c, x⟩] }).updBreath 0 fun b =>
    { b with ind := { b.ind with excess := excess } }

theorem witness_SlotsFollowTheirConditions :
    (slotOf (slotted .dormant copy1 true) 0 1 1 = some ⟨1, copy1, .dormant⟩
        ∧ ConditionTrue tone1 ((slotted .dormant copy1 true).station 0).breath.ind)
      ∧ (slotOf (slotted (.voiced 0) copy0 false) 0 1 1 = some ⟨1, copy0, .voiced 0⟩
        ∧ ConditionTrue tone0 ((slotted (.voiced 0) copy0 false).station 0).breath.ind)
      ∧ (slotOf (slotted .dormant copy1 false) 0 1 1 = some ⟨1, copy1, .dormant⟩
        ∧ ¬ ConditionTrue tone1 ((slotted .dormant copy1 false).station 0).breath.ind)
      ∧ (slotOf (slotted (.voiced 0) copy1 false) 0 1 1 = some ⟨1, copy1, .voiced 0⟩
        ∧ ¬ ConditionTrue tone1 ((slotted (.voiced 0) copy1 false).station 0).breath.ind
        ∧ ((slotted (.voiced 0) copy1 false).voice 0).state = .sounding)
      ∧ (slotOf (slotted (.claiming 2) copy1 false) 0 1 1 = some ⟨1, copy1, .claiming 2⟩
        ∧ ¬ ConditionTrue tone1 ((slotted (.claiming 2) copy1 false).station 0).breath.ind)
      ∧ (slotOf (slotted .starved copy1 false) 0 1 1 = some ⟨1, copy1, .starved⟩
        ∧ ¬ ConditionTrue tone1 ((slotted .starved copy1 false).station 0).breath.ind)
      ∧ (base.note 0 = none ∧ (noted.note 0).isSome = true ∧ slotOf noted 0 1 2 = none) := by
  unfold ConditionTrue MaskedSet
  exact ⟨by decide +kernel, by decide +kernel, by decide +kernel, by decide +kernel, by decide +kernel,
    by decide +kernel, by decide +kernel⟩

theorem witness_NoteOnTakesATagAndCopiesTheTemplate :
    (1 ≤ base.tagCounter ∧ base.tagCounter ≤ 255)
      ∧ 1 ≤ ({ noted with tagCounter := 255 } : State).tagCounter
      ∧ ({ noted with tagCounter := 255 } : State).tagCounter ≤ 255
      ∧ ((playing none).templates[((playing none).station 0).settings.template] =
          [⟨4, some 5, tone0⟩, ⟨9, none, tone1⟩]
        ∧ (playing none).waves[(4 : WaveId)] = some ⟨4096, 10⟩
        ∧ (playing none).waves[(5 : WaveId)] = some ⟨8192, 11⟩
        ∧ ((noteOn (playing none) 0 73 false).note 0).map (fun n => n.slots.length) = some 2)
      ∧ (base.templates[(base.station 0).settings.template] = []
        ∧ ((noteOn base 0 73 false).note 0).map (fun n => (n.template, n.slots)) = some (none, [])) := by
  decide +kernel

/-! #### The links and the engine -/

/-- Station 0 LIVE with this frame in assembly. -/
def assembling (a : FrameAssembly) (buffer : Option Frame) : State :=
  (playing buffer).updLink 0 fun l => { l with assembly := some a }

/-- Station 0 waiting for a 1, this long after its last sample. -/
def heldAt (e : Nat) : State := (playing none).updLink 0 fun l => { l with character := .heldLow e }

theorem listens_playing (b : Option Frame) : Listens (playing b) 0 := ⟨rfl, rfl, by simp [playing,
  withStation, live, State.station, State.updStation], by simp [playing, withStation, live,
  State.station, State.updStation]⟩

/-- The levels of a whole character carry it. -/
theorem carries_charLine :
    CarriesCharacter 41 (charLine 41 0x2D true true) 0x2D true true
      ∧ CarriesCharacter 41 (charLine 41 0x55 true true) 0x55 true true
      ∧ CarriesCharacter 41 (charLine 41 0x33 true false) 0x33 true false
      ∧ CarriesCharacter 41 (charLine 41 0xCC false true) 0xCC false true := by
  unfold CarriesCharacter
  decide +kernel

/-- Every line is given by a row. -/
theorem gives_heard (levels : List Bool) : GivesLine (heard levels) 0 levels :=
  ⟨levels, [], [], [], rfl, by simp⟩

theorem listensAt_playing (b : Option Frame) : ListensAt (playing b) 0 41 :=
  ⟨listens_playing b, rfl, by decide, by decide, rfl⟩

theorem witness_CharactersAreFramed :
    (¬ Listens base 0 ∧ ListensAt (playing none) 0 41)
      ∧ (∀ levels, GivesLine (heard levels) 0 levels)
      ∧ (∃ t, exec (heard [true]) (playing none) = .next t)
      ∧ (Listens (heldAt 40) 0 ∧ ((heldAt 40).station 0).link.bitTime = some 41
        ∧ ((heldAt 40).station 0).link.character = .heldLow 40 ∧ 40 < 41
        ∧ ([true] : List Bool).length = 41 - 40)
      ∧ ((charLine 41 0x2D true true)[0]? = some false
        ∧ ((charLine 41 0x2D true true).take 430)[41 / 2]? ≠ some true
        ∧ ((charLine 41 0x2D true true).take 430).length ≤ 10 * 41 + 41 / 2)
      ∧ ((lineOf 41 [false] ++ [true]).take 20 ++ [true])[41 / 2]? = some true
      ∧ (CarriesCharacter 41 (charLine 41 0x2D true true) 0x2D true true
        ∧ CarriesCharacter 41 (charLine 41 0x55 true true) 0x55 true true
        ∧ CarriesCharacter 41 (charLine 41 0x33 true false) 0x33 true false
        ∧ CarriesCharacter 41 (charLine 41 0xCC false true) 0xCC false true)
      ∧ (((playing none).station 0).link.assembly = none
        ∧ ((assembling ⟨.play, 13, 10, [0x2D]⟩ none).station 0).link.assembly =
          some ⟨.play, 13, 10, [0x2D]⟩ ∧ [0x2D].length + 1 ≠ 10)
      ∧ ((0x1F : Byte).toNat / 16 = 1 ∧ (0x3F : Byte).toNat / 16 = 3 ∧ (0x0F : Byte).toNat / 16 = 0
        ∧ 4 ≤ (0x40 : Byte).toNat / 16) :=
  ⟨⟨by unfold Listens; decide, listensAt_playing none⟩, gives_heard, ⟨_, rfl⟩,
    ⟨by unfold Listens; decide +kernel, by decide +kernel⟩, by decide +kernel, by decide +kernel,
    carries_charLine, by decide +kernel, by decide⟩

/-- A HUSH with this number, its check character next; the last number is 12. -/
def hushing (seq : Nat) (buffer : Option Frame) : State :=
  assembling ⟨.hush, seq, 2, [BitVec.ofNat 8 (0x30 + seq)]⟩ buffer

theorem witness_CompleteFramesAreCheckedAndAccepted :
    (ListensAt (hushing 4 none) 0 41
        ∧ GivesLine (heard (charLine 41 0xCC false true)) 0 (charLine 41 0xCC false true)
        ∧ CarriesCharacter 41 (charLine 41 0xCC false true) 0xCC false true
        ∧ ((hushing 4 none).station 0).link.assembly = some ⟨.hush, 4, 2, [0x34]⟩
        ∧ (([0x34, 0xCD] : List Byte).map BitVec.toNat).sum % 256 = 1
        ∧ (([0x34, 0xCC] : List Byte).map BitVec.toNat).sum % 256 = 0)
      ∧ (((hushing 5 none).station 0).link.windowOpen = false
        ∧ ((hushing 5 none).station 0).link.lastSeq = some 12 ∧ 9 ≤ (5 + 16 - 12) % 16
        ∧ (12 + 16 - 12) % 16 = 0)
      ∧ (WindowPasses ((hushing 4 none).station 0).link 4 7
        ∧ WindowPasses ((hushing 13 none).station 0).link 13 0)
      ∧ (((hushing 4 none).station 0).link.buffer = none
        ∧ ((hushing 4 (playFrame 0 0)).station 0).link.buffer = some ⟨13, .play 0 0 2048⟩) :=
  ⟨⟨by unfold ListensAt Listens; decide +kernel, gives_heard _, carries_charLine.2.2.2, by decide +kernel⟩,
    by decide +kernel,
    ⟨Or.inr ⟨by decide +kernel, 12, by decide +kernel⟩,
      Or.inr ⟨by decide +kernel, 12, by decide +kernel⟩⟩, by decide +kernel⟩

/-- A SYNC pattern of bit time T. -/
def pattern (T : Nat) : List Nat := List.replicate 9 T

theorem witness_SyncIsLearnedAndTaken :
    (State.reset.clearRunning = true
        ∧ (base.clearRunning = false ∧ base.rstAsserted = false ∧ (base.station 0).state ≠ .disabled))
      ∧ (¬ ∃ T : Nat, 2 * (pattern 100).sum < 18 * T + 9 ∧ 18 * T < 2 * (pattern 100).sum + 9
            ∧ 8 ≤ T ∧ T ≤ 99 ∧ (pattern 100).length = 9 ∧ true = true
            ∧ ∀ n ∈ pattern 100, 3 * T ≤ 4 * n ∧ 4 * n ≤ 5 * T)
      ∧ (∀ T ∈ [8, 99], 2 * (pattern T).sum < 18 * T + 9 ∧ 18 * T < 2 * (pattern T).sum + 9
            ∧ (pattern T).length = 9 ∧ ∀ n ∈ pattern T, 3 * T ≤ 4 * n ∧ 4 * n ≤ 5 * T)
      ∧ (((hushing 4 none).station 0).link.assembly.isSome = true
        ∧ (base.station 0).link.assembly = none ∧ (base.station 0).stall = none)
      ∧ (((base.updStation 0 fun x => { x with stall := some .expiry }).station 0).stall ≠ none)
      ∧ (base.station 0).syncHanded = false
      ∧ (((noted.updStation 0 fun x => { x with syncHanded := true }).station 0).syncHanded = true
        ∧ (noted.station 0).state ≠ .disabled)
      ∧ ((noted.updStation 0 fun x => { x with syncHanded := true }).station 0).restOk := by
  refine ⟨by decide +kernel, ?_, by decide, by decide +kernel, by decide +kernel, by decide +kernel,
    by decide +kernel, by unfold Station.restOk; decide +kernel⟩
  rintro ⟨T, h1, h2, h3, h4, -⟩
  have hs : (pattern 100).sum = 900 := by decide
  omega

theorem witness_RepliesAreSentInTurn :
    Link.reset.sending = none ∧ (noted.station 0).link.sending ≠ none
      ∧ (noted.station 0).link.waiting = none
      ∧ ((noted.updLink 0 fun l => { l with waiting := some ⟨1, 2, 3, 4⟩ }).station 0).link.waiting =
          some ⟨1, 2, 3, 4⟩
      ∧ (State.reset.clearRunning = true ∧ (base.station 0).link.sending = none
        ∧ (noted.ltx 0).length ≤ 44)
      ∧ (∀ T ∈ [8, 99], ∀ p ∈ [0, 3], ∀ cut : Bool,
          let x : Sending := ⟨⟨0x8D, 73, 12, 30⟩, p, 11 * T, some T, cut⟩
          x.bitTime = some T ∧ 8 ≤ T ∧ T ≤ 99 ∧ x.position < 4 ∧ x.cut = cut)
      ∧ (noted.clearRunning = false
        ∧ (noted.station 0).link.sending = some ⟨⟨0x8D, 73, 12, 30⟩, 0, 0, some 41, false⟩
        ∧ ((cutOff 3).station 0).link.sending = some ⟨⟨0x8D, 73, 12, 30⟩, 3, 451, some 41, true⟩) := by
  decide +kernel

/-- Station 0 in this state with this frame in the buffer. -/
def waiting (x : StationState) (f : FrameContent) : State :=
  withStation { Station.reset with state := x, link := { Link.reset with buffer := some ⟨1, f⟩ } } base

theorem witness_HelloStartsCalibration :
    (((waiting .offline (.hello 3 7 2)).station 0).state = .offline)
      ∧ (∀ x ∈ [StationState.synced, .calibrating, .lost],
          ((waiting x (.hello 3 0 8)).station 0).link.buffer = some ⟨1, .hello 3 0 8⟩
            ∧ ((waiting x (.hello 3 0 8)).station 0).engineFree = true
            ∧ ((waiting x (.hello 3 0 8)).station 0).state = x)
      ∧ ((waiting .lost (.hello 3 0 8)).station 0).restOk
      ∧ (((playing (some ⟨1, .hello 16 33 7⟩)).station 0).link.buffer = some ⟨1, .hello 16 33 7⟩
        ∧ ((playing (some ⟨1, .hello 16 33 7⟩)).station 0).engineFree = true
        ∧ ((playing (some ⟨1, .hello 16 33 7⟩)).station 0).state = .live)
      ∧ ((playing (some ⟨1, .hello 16 33 7⟩)).station 0).restOk :=
  ⟨by decide +kernel, by decide +kernel, by unfold Station.restOk; decide +kernel, by decide +kernel,
    by unfold Station.restOk; decide +kernel⟩

/-- Station 0 CALIBRATING with this calibration and a PLAY of this breath. -/
def sampling (c : Calibration) (breath : Nat) : State :=
  (waiting .calibrating (.play 0 breath 5000)).updStation 0 fun x => { x with calib := c }

theorem witness_FramesThatAreNotPerformed :
    (((sampling ⟨4, 3277, 0, some 812, some 830⟩ 909).station 0).link.buffer = some ⟨1, .play 0 909 5000⟩
        ∧ ((sampling ⟨4, 3277, 0, some 812, some 830⟩ 909).station 0).engineFree = true
        ∧ ((sampling ⟨4, 3277, 0, some 812, some 830⟩ 909).station 0).state = .calibrating
        ∧ ((sampling ⟨4, 3277, 0, some 812, some 830⟩ 909).station 0).settings.spread <
            max 830 909 - min 812 909)
      ∧ (max 830 908 - min 812 908 ≤
            ((sampling ⟨4, 3277, 0, some 812, some 830⟩ 908).station 0).settings.spread ∧ 4 + 1 ≠ 16)
      ∧ (((sampling ⟨15, 12180, 0, some 812, some 812⟩ 812).station 0).calib.count + 1 = 16
        ∧ max 812 812 - min 812 812 ≤
            ((sampling ⟨15, 12180, 0, some 812, some 812⟩ 812).station 0).settings.spread)
      ∧ (((waiting .synced (.play 0 0 0)).station 0).link.buffer = some ⟨1, .play 0 0 0⟩
        ∧ ((waiting .synced (.play 0 0 0)).station 0).engineFree = true
        ∧ ((waiting .synced (.play 0 0 0)).station 0).state = .synced)
      ∧ (∀ x ∈ [StationState.synced, .calibrating, .lost],
          ((waiting x .hush).station 0).link.buffer = some ⟨1, .hush⟩
            ∧ ((waiting x .hush).station 0).engineFree = true ∧ ((waiting x .hush).station 0).state = x)
      ∧ (((playing (some ⟨1, .hush⟩)).station 0).link.buffer = some ⟨1, .hush⟩
        ∧ ((playing (some ⟨1, .hush⟩)).station 0).engineFree = true
        ∧ ((playing (some ⟨1, .hush⟩)).station 0).state = .live
        ∧ (playing (some ⟨1, .hush⟩)).note 0 = none) := by decide +kernel

/-- The breath state that a frame of this breath brings to station 0. -/
def brought (s : State) (breath : Nat) : Breath :=
  breathStep (s.station 0).settings (s.station 0).breath (min 4095 breath) (min 4095 2048)

/-- As `playing`, with an edit of C2 in flight. -/
def stalling (frame : Option Frame) : State := withStation (live frame) (withT5 editing)

/-- As `noted`, with another frame waiting. -/
def notedFrame (keys : Word) (breath : Nat) : State :=
  noted.updLink 0 fun l => { l with buffer := playFrame keys breath }

theorem no_resolution :
    ¬ CallsForResolution ((playing (playFrame 0 850)).station 0)
      (brought (playing (playFrame 0 850)) 850) 0 := by
  rintro (h | ⟨⟨k, hk, -⟩, -⟩ | h | h)
  · exact absurd h (by decide +kernel)
  · exact hk ((by decide +kernel : ∀ k : KeyId,
      ((playing (playFrame 0 850)).station 0).fingering.snapshot.getLsbD k.val =
        (0 : Word).getLsbD k.val) k)
  · exact absurd h.1 (by decide +kernel)
  · exact absurd h.1 (by decide +kernel)

theorem witness_PlayIsPerformed :
    (((playing (playFrame 0 2900)).station 0).link.buffer = some ⟨13, .play 0 2900 2048⟩
        ∧ ((playing (playFrame 0 2900)).station 0).engineFree = true
        ∧ ((playing (playFrame 0 2900)).station 0).state = .live)
      ∧ SnapshotOf 32 0 0 ∧ SnapshotOf 7 0xFF 0x7F
      ∧ CallsForResolution ((playing (playFrame 0 2900)).station 0)
          (brought (playing (playFrame 0 2900)) 2900) 0
      ∧ (playing (playFrame 0 2900)).charts.busy 2 = false
      ∧ CallsForResolution ((stalling (playFrame 0 2900)).station 0)
          (brought (stalling (playFrame 0 2900)) 2900) 0
      ∧ (stalling (playFrame 0 2900)).charts.busy 2 = true
      ∧ ¬ CallsForResolution ((playing (playFrame 0 850)).station 0)
          (brought (playing (playFrame 0 850)) 850) 0
      ∧ BringsCovered ((playing (playFrame 1 850)).station 0) 1
      ∧ (((notedFrame 0 700).station 0).breath.ind.gate = true
        ∧ (brought (notedFrame 0 700) 700).ind.gate = false)
      ∧ ((waiting .lost (.play 0 900 2048)).station 0).state = .lost :=
  ⟨by decide +kernel, by unfold SnapshotOf; decide, by unfold SnapshotOf; decide,
    Or.inl (by decide +kernel), by decide +kernel, Or.inl (by decide +kernel), by decide +kernel,
    no_resolution, ⟨0, by decide +kernel, Or.inl (by decide +kernel)⟩, by decide +kernel,
    by decide +kernel⟩

/-- Station 0 as in `noted`, or SILENT with onset pending or not, holding this snapshot. -/
def holding (keys : Word) (note onset : Bool) (mode : NoteMode) : State :=
  noted.updStation 0 fun x =>
    { x with
      settings := { x.settings with mode := mode }
      fingering :=
        { x.fingering with
          snapshot := keys, onsetPending := onset, note := if note then x.fingering.note else none } }

theorem witness_ResolutionSettlesTheNote :
    (lookup (holding 0x17 true false .legato).charts.lists[
        ((holding 0x17 true false .legato).station 0).settings.chart] 0x17 = none)
      ∧ (lookup (holding 0x07 true false .legato).charts.lists[
          ((holding 0x07 true false .legato).station 0).settings.chart] 0x07 =
            some ⟨67, some 6, 12, false⟩)
      ∧ ((holding 0x07 true false .legato).note 0).map NoteRecord.number = some 73
      ∧ ((holding 0 true false .legato).note 0).map NoteRecord.number = some 73
      ∧ lookup chartC2 0 = some ⟨73, none, 12, true⟩
      ∧ ((holding 0x07 true false .retrigger).station 0).settings.mode = .retrigger
      ∧ ((holding 0x07 false true .legato).note 0 = none
        ∧ ((holding 0x07 false true .legato).station 0).fingering.onsetPending = true)
      ∧ ((holding 0x07 false false .legato).note 0 = none
        ∧ ((holding 0x07 false false .legato).station 0).fingering.onsetPending = false) := by
  decide +kernel

/-- `s` with station 0's settle timer expired. -/
def settled (s : State) : State := s.updFingering 0 fun g => { g with settle := .expired }

/-- `s` with station 0's silence timer expired. -/
def silent (s : State) : State := s.updLink 0 fun l => { l with silence := .expired }

theorem witness_TimerExpiriesAreTaken :
    ((base.station 0).fingering.settle ≠ .expired ∧ (base.station 0).link.silence ≠ .expired)
      ∧ (((settled (stalling none)).station 0).state = .live
        ∧ ((settled (stalling none)).station 0).fingering.settle = .expired
        ∧ ((settled (stalling none)).station 0).engineFree = true
        ∧ (settled (stalling none)).charts.busy ((settled (stalling none)).station 0).settings.chart = true)
      ∧ (((settled noted).station 0).state = .live
        ∧ ((settled noted).station 0).fingering.settle = .expired
        ∧ ((settled noted).station 0).engineFree = true
        ∧ (settled noted).charts.busy ((settled noted).station 0).settings.chart = false)
      ∧ (((silent noted).station 0).state = .live ∧ ((silent noted).station 0).link.silence = .expired
        ∧ ((silent noted).station 0).syncHanded = false)
      ∧ (((silent (resting .calibrating)).station 0).state = .calibrating
        ∧ ((silent (resting .calibrating)).station 0).link.silence = .expired
        ∧ ((silent (resting .calibrating)).station 0).syncHanded = false) := by decide +kernel

/-! #### Breath, rendering, faults -/

theorem witness_CurveAndDeflection :
    (1044225 ≤ 1044225 ∧ (4095 : Nat) ≤ 4095 ∧ (4095 : Int) = ((4095 : Nat) : Int) - ((0 : Nat) : Int))
      ∧ (((2060 : Int) - 2048).natAbs ≤ 16 ∧ ((16 : Nat) : Int) < (2300 : Int) - 2048
        ∧ (1800 : Int) - 2048 < -((16 : Nat) : Int)) := by decide

/-- A frame of section 1.11 that reads B = 790 at the end of a borrow run. -/
theorem witness_BreathComputation :
    ∃ y : Breath, y = breathStep s111 ⟨812, 2048, 0, 0, Indicators.clear, false, 255⟩ 790 2048
      ∧ (790 < 812 ∧ 255 + 1 = 256) := ⟨_, rfl, by decide⟩

/-- Station 0's settle timer here. -/
def settling (t : Timer) (s : State) : State := s.updFingering 0 fun g => { g with settle := t }

theorem witness_SamplePeriodAdvancesTheClocks :
    ((noted.station 0).link.silence = .running 1152 ∧ (noted.station 0).fingering.settle = .stopped
        ∧ (base.station 0).link.silence = .stopped)
      ∧ (((settling (.running 1) noted).station 0).fingering.settle = .running 1
        ∧ ((settling (.running 96) noted).station 0).fingering.settle = .running 96)
      ∧ ((disabledPart.station 0).state = .disabled ∧ disabledPart.rstAsserted = false
        ∧ disabledPart.clearRunning = false ∧ State.reset.clearRunning = true) := by decide +kernel

/-- The sums of section 6.10, at station 2. -/
def loud : Sums := #v[⟨0, 0⟩, ⟨0, 0⟩, ⟨920000, 760000⟩, ⟨0, 0⟩]

/-- Station 2 with its output gain of 160. -/
def gained : State :=
  base.updStation 2 fun x => { x with settings := { x.settings with outGain := 160 } }

theorem witness_OutputsAreLimitedAndClipped :
    ((disabledPart.station 0).state = .disabled ∧ (gained.station 2).state ≠ .disabled)
      ∧ (loud[2].left * ((gained.station 2).settings.outGain : Int) / 16 = 9200000
        ∧ loud[2].right * ((gained.station 2).settings.outGain : Int) / 16 = 7600000
        ∧ (8388607 : Int) < 9200000 ∧ gained.audio.clip[2] = false)
      ∧ ({ gained with audio := { gained.audio with clip := Vector.replicate 4 true } } : State).audio.clip[2]
          = true := by decide +kernel

theorem witness_VoicesAreStepped :
    ((noted.voice 1).state = .free ∧ (held.voice 0).state = .faulted)
      ∧ ((noted.voice 0).copy = some copy0 ∧ (noted.voice 0).outStation = some 0
        ∧ (noted.voice 0).state = .sounding ∧ (noted.voice 0).glide = .stopped
        ∧ noted.memory.parityFailed (4096 + (noted.voice 0).phase.toNat / 2 ^ (32 - 10)) = false
        ∧ noted.memory.parityFailed (8192 + (noted.voice 0).phase.toNat / 2 ^ (32 - 11)) = false)
      ∧ ((poolA.voice 1).state = .releasing ∧ (poolA.voice 1).copy = some copy0
        ∧ ((withVoice 0 { Voice.free with
            state := .draining, copy := some copy1, outStation := some 3 } base).voice 0).copy =
              some copy1)
      ∧ ((noted.updVoice 0 fun x => { x with glide := .running 1, target := 5000 }).voice 0).glide =
          .running 1 := by decide +kernel

/-- As `noted`, V0 in this state, and bound to a claim of S1 where it drains, with a parity error at the sample
that it reads next of wave A (address 4096) or of wave B (address 8192). -/
def erring (state : VoiceState) (address : Nat) (enable : Half) : State :=
  { noted.updVoice 0 fun x => { x with state := state } with
    claims := if state = .draining then [⟨1, 9, 0, 0⟩] else []
    memory := [(3 * address + 2, 1)], faults := { noted.faults with enable := enable } }

/-- The states in which a voice is stepped. -/
def steppedStates : List VoiceState := [.sounding, .releasing, .draining]

theorem erring_pool (x : VoiceState) (h : x ∈ steppedStates) : PoolOk (erring x 4096 0x07FE) := by
  have h : x = .sounding ∨ x = .releasing ∨ x = .draining := by simpa [steppedStates] using h
  rcases h with rfl | rfl | rfl <;>
    exact ⟨by decide +kernel, by decide +kernel, by decide +kernel, by decide +kernel⟩

theorem erring_voice : ∀ x ∈ steppedStates,
    ((erring x 4096 0x07FE).voice 0).copy = some copy0
      ∧ ((erring x 4096 0x07FE).voice 0).outStation = some 0
      ∧ ((erring x 4096 0x07FE).voice 0).state = x
      ∧ ((erring x 4096 0x07FE).voice 0).phase = 0 := by decide +kernel

theorem witness_ParityErrorsHoldTheVoice :
    (∀ x ∈ steppedStates, PoolOk (erring x 4096 0x07FE))
      ∧ (∀ x ∈ steppedStates,
        ((erring x 4096 0x07FE).voice 0).copy = some copy0
          ∧ ((erring x 4096 0x07FE).voice 0).outStation = some 0
          ∧ ((erring x 4096 0x07FE).voice 0).state = x
          ∧ ((erring x 4096 0x07FE).voice 0).phase = 0)
      ∧ ((erring .sounding 4096 0x07FE).memory.parityFailed 4096 = true
        ∧ (erring .sounding 8192 0x07FE).memory.parityFailed 4096 = false
        ∧ (erring .sounding 8192 0x07FE).memory.parityFailed 8192 = true)
      ∧ ((erring .sounding 4096 0x07FE).faults.enable.getLsbD 6 = true
        ∧ (erring .sounding 4096 0).faults.enable.getLsbD 6 = false)
      ∧ (claimOf (erring .draining 4096 0) 0 = some ⟨1, 9, 0, 0⟩
        ∧ ((erring .sounding 4096 0).voice 0).owner = some ⟨0, 1, 0⟩) :=
  ⟨erring_pool, erring_voice, by decide +kernel, by decide +kernel, by decide +kernel⟩

/-- V0 of station 0, on the way from 4224 to a target at this glide rate. -/
def gliding (target rate : Nat) (g : Glide) : State :=
  (noted.updStation 0 fun x => { x with settings := { x.settings with glide := rate } }).updVoice 0
    fun y => { y with base := 4224, target := target, glide := g }

theorem witness_GlideMovesTheBase :
    ((noted.voice 1).state ≠ .sounding ∧ (noted.voice 0).glide ≠ .running 1)
      ∧ (((gliding 4288 20 (.running 1)).voice 0).state = .sounding
        ∧ ((gliding 4288 20 (.running 1)).voice 0).outStation = some 0
        ∧ ((gliding 4288 20 (.running 1)).station 0).settings.glide = 20
        ∧ ((gliding 4288 20 (.running 1)).voice 0).glide = .running 1 ∧ 4224 + 20 < 4288)
      ∧ (((gliding 4244 20 (.running 1)).voice 0).target = 4244 ∧ (4244 : Int) - 4224 ≤ (20 : Nat))
      ∧ (((gliding 4203 20 (.running 1)).voice 0).target = 4203 ∧ 4203 + 20 < 4224)
      ∧ ((gliding 4288 0 (.running 1)).station 0).settings.glide = 0
      ∧ (base.note 0 = none ∧ ((noted.note 0).map fun n => n.slots.map Slot.state) =
          some [.voiced 0, .dormant])
      ∧ (((gliding 4288 20 (.running 2)).voice 0).glide = .running 2
        ∧ ((gliding 4288 20 (.advanced 48)).voice 0).glide = .advanced 48) := by decide +kernel

theorem witness_FaultsAreTakenAndCleared :
    (({ base with faults := { base.faults with enable := 0 } } : State).faults.enable.getLsbD
        FaultKind.chartMiss.number = false)
      ∧ (base.faults.enable.getLsbD FaultKind.linkFraming.number = true
        ∧ base.faults.enable.getLsbD FaultKind.portAbort.number = true ∧ base.faults.first = none)
      ∧ (withFault 42 0).faults.first.isSome = true
      ∧ (portTakes (withFault 42 0) (.faultClear 42) = true ∧ (42 : Half) = (withFault 42 0).faults.count
        ∧ portTakes (withFault 42 0) (.faultClear 41) = true
        ∧ (41 : Half) ≠ (withFault 42 0).faults.count)
      ∧ (portTakes (atPort base) (.faultPolicy 0x07FE 0x07FE) = true
        ∧ (∀ n, n = 0 ∨ 11 ≤ n → (0x07FE : Half).getLsbD n = false)
        ∧ (0xFFFF : Half).getLsbD 11 = true ∧ (1 : Half).getLsbD 0 = true) := by
  refine ⟨by decide, by decide, by decide, by decide, by decide, fun n hn => ?_, by decide, by decide⟩
  by_cases h : n < 16
  · have : ∀ n : Fin 16, n.val = 0 ∨ 11 ≤ n.val → (0x07FE : Half).getLsbD n.val = false := by decide
    exact this ⟨n, h⟩ hn
  · exact BitVec.getLsbD_of_ge _ _ (by omega)

/-! #### What every step keeps -/

/-- As `noted`, with samples stored and a command waiting. -/
def steady : State :=
  { noted with
    memory := [(12, 0x80), (14, 1)], pending := [.samplePeriod [] []] }

theorem steady_station (i : StationId) :
    steady.station i = noted.station 0 ∨ steady.station i = Station.reset := by
  have h : ∀ i : StationId, i = 0 ∨ steady.station i = Station.reset := by decide +kernel
  rcases h i with rfl | h
  · exact Or.inl rfl
  · exact Or.inr h

theorem steady_steps : ∃ t, step steady = .next t := ⟨_, rfl⟩

theorem witness_StepsKeepTheMemoryCanonical : MemoryOk steady ∧ ∃ t, step steady = .next t :=
  ⟨by unfold MemoryOk; decide, steady_steps⟩

/-- An edit in flight that now completes. -/
def completing : State := { editing with pending := [.editCompletion []] }

theorem witness_StepsKeepTheChartCounts : completing.charts.ok ∧ ∃ t, step completing = .next t := by
  refine ⟨⟨by decide +kernel, by decide +kernel, by decide +kernel, ?_⟩, _, rfl⟩
  show (1 ≤ 1 ∧ 1 ≤ 128) ∧ completing.charts.lengths[2] = _ ∧ ∀ c : ChartId, c ≠ 2 → _
  exact ⟨by decide, by decide +kernel,
    (by decide +kernel : ∀ c : ChartId, c ≠ 2 →
      completing.charts.lengths[c] = completing.charts.lists[c].length)⟩

theorem steady_pool : PoolOk steady :=
  ⟨by decide +kernel, by decide +kernel, by decide +kernel, by decide +kernel⟩

/-- S0's note with one slot of each kind but DORMANT: V0 sounds layer 0, layer 1 waits on V1, layer 2 starves. -/
def listed : State :=
  (withVoice 1 { Voice.free with state := .draining, copy := some copy0 }
      { noted with
        claims := [⟨0, 1, 1, 1⟩], starve := [⟨0, 1, 2⟩], freeList := (List.finRange 32).drop 2
        pending := [.samplePeriod [] []] }).updNote 0 fun n =>
    { n with slots := [⟨0, copy0, .voiced 0⟩, ⟨1, copy1, .claiming 1⟩, ⟨2, copy1, .starved⟩] }

theorem listed_pool : PoolOk listed :=
  ⟨by decide +kernel, by decide +kernel, by decide +kernel, by decide +kernel⟩

theorem listed_note (i : StationId) (n : NoteRecord) (h : listed.note i = some n) :
    i = 0 ∧ n.tag = 1
      ∧ n.slots = [⟨0, copy0, .voiced 0⟩, ⟨1, copy1, .claiming 1⟩, ⟨2, copy1, .starved⟩] := by
  have only : ∀ j : StationId, j = 0 ∨ listed.note j = none := by decide +kernel
  have first : (listed.note 0).map (fun n => (n.tag, n.slots)) =
      some (1, [⟨0, copy0, .voiced 0⟩, ⟨1, copy1, .claiming 1⟩, ⟨2, copy1, .starved⟩]) := by
    decide +kernel
  rcases only i with rfl | e
  · rw [h] at first
    have := Prod.ext_iff.mp (Option.some.inj first)
    exact ⟨rfl, this.1, this.2⟩
  · rw [e] at h; cases h

theorem listed_slots : SlotsListed listed := by
  refine ⟨fun i n h => ?_, fun c hc => ?_, fun e he => ?_, by decide +kernel, fun i n x h hx => ?_,
    fun v hv => ?_⟩
  · rw [(listed_note i n h).2.2]; decide
  · have : c = ⟨0, 1, 1, 1⟩ := List.mem_singleton.mp hc
    subst this
    exact ⟨⟨1, copy1, .claiming 1⟩, by decide +kernel, rfl⟩
  · have : e = ⟨0, 1, 2⟩ := List.mem_singleton.mp he
    subst this
    exact ⟨⟨2, copy1, .starved⟩, by decide +kernel, rfl⟩
  · obtain ⟨rfl, ht, hs⟩ := listed_note i n h
    rw [hs] at hx
    rw [ht]
    have hx : x = ⟨0, copy0, .voiced 0⟩ ∨ x = ⟨1, copy1, .claiming 1⟩ ∨ x = ⟨2, copy1, .starved⟩ := by
      simpa using hx
    rcases hx with rfl | rfl | rfl
    · refine ⟨(fun v h => by cases h), (fun h => by cases h), fun v h => ?_⟩
      cases h
      decide +kernel
    · refine ⟨fun v h => ?_, (fun h => by cases h), (fun v h => by cases h)⟩
      cases h
      decide +kernel
    · exact ⟨(fun v h => by cases h), (fun _ => by decide +kernel), (fun v h => by cases h)⟩
  · have only : ∀ v : VoiceId, (listed.voice v).state = .sounding → v = 0 := by decide +kernel
    rw [only v hv]
    exact ⟨⟨0, 1, 0⟩, ⟨0, copy0, .voiced 0⟩, by decide +kernel, by decide +kernel, rfl⟩

theorem witness_StepsKeepThePoolsLists :
    PoolOk listed ∧ SlotsListed listed ∧ ∃ t, step listed = .next t :=
  ⟨listed_pool, listed_slots, _, rfl⟩

theorem witness_StepsKeepTheCaps :
    PoolOk steady ∧ ReservesOk steady ∧ CapsHold steady ∧ ∃ t, step steady = .next t :=
  ⟨steady_pool, by unfold ReservesOk; decide +kernel, by unfold CapsHold; decide +kernel, steady_steps⟩

theorem witness_StepsKeepTheLifecycle :
    LifecycleOk steady ∧ NotesGated steady ∧ SilenceOk steady ∧ ClipsOk steady
      ∧ ∃ t, step steady = .next t := by
  refine ⟨?_, ?_, fun i => ⟨?_, fun n h => ?_⟩, by unfold ClipsOk; decide +kernel, steady_steps⟩
  · unfold LifecycleOk Station.enableOk Station.restOk; decide +kernel
  · unfold NotesGated Station.gateOk; decide +kernel
  · exact (by decide +kernel : ∀ i : StationId, (steady.station i).link.silence = .stopped ↔
      (steady.station i).state ≠ .calibrating ∧ (steady.station i).state ≠ .live) i
  · rcases steady_station i with e | e <;> rw [e] at h
    · rw [show (noted.station 0).link.silence = .running 1152 by decide +kernel] at h
      cases h
      decide
    · exact absurd h (by intro h; cases h)

theorem steady_breath : BreathOk steady := by
  unfold BreathOk Station.breathOk; decide +kernel

theorem steady_tags : TagsOk steady := by
  refine ⟨by decide +kernel, fun i n h => ?_⟩
  have all : ∀ i : StationId,
      ((steady.note i).all fun n => decide (1 ≤ n.tag ∧ n.tag ≤ 255)) = true := by decide +kernel
  have hi := all i
  rw [h] at hi
  simpa using hi

theorem steady_sets : FaultSetsOk steady := by
  intro n h
  by_cases hn : n < 16
  · have : ∀ n : Fin 16, steady.faults.flags.getLsbD n.val = true ∨
        steady.faults.enable.getLsbD n.val = true ∨ steady.faults.mask.getLsbD n.val = true →
          1 ≤ n.val ∧ n.val ≤ 10 := by decide +kernel
    exact this ⟨n, hn⟩ h
  · have e : ∀ x : Half, x.getLsbD n = false := fun x => BitVec.getLsbD_of_ge _ _ (by omega)
    rw [e, e, e] at h
    simp at h

theorem steady_stores : StoresOk steady := by
  refine ⟨fun w r h => ?_, fun n => ⟨?_, fun l hl => ?_⟩⟩
  · have all : ∀ w : WaveId, ((steady.waves[w]).all fun r =>
        decide ((8 ≤ r.k ∧ r.k ≤ 12) ∧ r.start + 2 ^ r.k ≤ 65536)) = true := by decide +kernel
    have hw := all w
    rw [h] at hw
    simpa [WaveRegion.inRange] using hw
  · exact (by decide +kernel : ∀ n : TemplateId, steady.templates[n].length ≤ 3) n
  · have all : ∀ n : TemplateId, n = 5 ∨ steady.templates[n] = [] := by decide +kernel
    rcases all n with rfl | e
    · have h5 : steady.templates[(5 : TemplateId)] = [⟨4, some 5, tone0⟩, ⟨9, none, tone1⟩] := by
        decide +kernel
      rw [h5] at hl
      have hl : l = ⟨4, some 5, tone0⟩ ∨ l = ⟨9, none, tone1⟩ := by simpa using hl
      rcases hl with rfl | rfl
      · refine ⟨by decide +kernel, fun b hb => ?_, by unfold Tone.inRange; decide⟩
        cases hb
        decide +kernel
      · exact ⟨by decide +kernel, fun b hb => absurd hb (by intro h; cases h),
          by unfold Tone.inRange; decide⟩
    · rw [e] at hl
      cases hl

theorem steady_links : LinksOk steady := by
  intro i
  rcases steady_station i with e | e <;> rw [e]
  · have hl : (noted.station 0).link =
        { Link.reset with
          bitTime := some 41, lastSeq := some 12, windowOpen := false, silence := .running 1152
          sending := some ⟨⟨0x8D, 73, 12, 30⟩, 0, 0, some 41, false⟩ } := by decide +kernel
    rw [hl]
    refine ⟨fun T h => ?_, trivial, fun a h => ?_, fun f h => ?_, fun q h => ?_, fun _ => ?_, by decide⟩
    · cases h; decide
    · cases h
    · cases h
    · cases h; decide
    · simp
  · refine ⟨fun T h => ?_, trivial, fun a h => ?_, fun f h => ?_, fun q h => ?_, fun h => ?_, by decide⟩
    all_goals cases h

theorem copies_in_range : copy0.inRange ∧ copy1.inRange := by
  unfold LayerCopy.inRange Tone.inRange WaveRegion.inRange
  refine ⟨⟨by decide, by decide, fun b h => ?_⟩, by decide, by decide, fun b h => by cases h⟩
  cases h
  decide

theorem steady_voices : VoicesOk steady := by
  refine ⟨fun v => ?_, fun i n x h hx => ?_⟩
  · have only : ∀ v : VoiceId, v = 0 ∨ steady.voice v = Voice.free := by decide +kernel
    rcases only v with rfl | e
    · have glide : (steady.voice 0).glide = .stopped := by decide +kernel
      have copy : (steady.voice 0).copy = some copy0 := by decide +kernel
      refine ⟨by decide +kernel, by decide +kernel, fun n h => ?_, fun _ => by decide +kernel,
        fun h => absurd h (by decide +kernel), fun c h => ?_⟩
      · rw [glide] at h
        rcases h with h | h <;> cases h
      · rw [copy] at h
        cases h
        exact copies_in_range.1
    · rw [e]; exact inRange_free
  · have copies : ∀ i : StationId,
        ((steady.note i).all fun n => n.slots.all fun x => x.copy = copy0 ∨ x.copy = copy1) = true := by
      decide +kernel
    have hi := copies i
    rw [h] at hi
    have := List.all_eq_true.mp hi x hx
    rcases of_decide_eq_true this with e | e <;> rw [e]
    · exact copies_in_range.1
    · exact copies_in_range.2

theorem witness_StepsKeepTheRanges :
    BreathOk steady ∧ TagsOk steady ∧ FaultSetsOk steady ∧ StoresOk steady ∧ LinksOk steady
      ∧ FramePositionOk steady ∧ VoicesOk steady ∧ ∃ t, step steady = .next t :=
  ⟨steady_breath, steady_tags, steady_sets, steady_stores, steady_links,
    by unfold FramePositionOk; decide +kernel, steady_voices, steady_steps⟩

end Sys2Proof.Tests
end

section
/-! Breath arithmetic (chapter 1): what the curve value and the lip deflection are, and O46, which gathers them. -/

namespace Sys2Proof.Machine

/-! ### The root, bit by bit (R12) -/

/-- One round of `isqrt`: bit b joins the root q when the square still does not exceed n. -/
def rootBit (n b q : Nat) : Nat := if (q + 2 ^ b) * (q + 2 ^ b) ≤ n then q + 2 ^ b else q

theorem isqrt_eq_foldr_rootBit (n : Nat) :
    isqrt n = (List.range (n.log2 / 2 + 1)).foldr (rootBit n) 0 := rfl

theorem rootBit_of_le {n b q : Nat} (h : (q + 2 ^ b) * (q + 2 ^ b) ≤ n) : rootBit n b q = q + 2 ^ b :=
  if_pos h

theorem rootBit_of_lt {n b q : Nat} (h : n < (q + 2 ^ b) * (q + 2 ^ b)) : rootBit n b q = q :=
  if_neg (Nat.not_le.mpr h)

/-- A round halves the interval that holds the root: from [q, q + 2^(b+1)) to [q', q' + 2^b). -/
theorem rootBit_keeps_bracket {n b q : Nat} (lower : q * q ≤ n)
    (upper : n < (q + 2 ^ (b + 1)) * (q + 2 ^ (b + 1))) :
    rootBit n b q * rootBit n b q ≤ n ∧ n < (rootBit n b q + 2 ^ b) * (rootBit n b q + 2 ^ b) := by
  rcases Nat.lt_or_ge n ((q + 2 ^ b) * (q + 2 ^ b)) with h | h
  · rw [rootBit_of_lt h]
    exact ⟨lower, h⟩
  · have twice : q + 2 ^ b + 2 ^ b = q + 2 ^ (b + 1) := by rw [Nat.pow_succ]; omega
    rw [rootBit_of_le h, twice]
    exact ⟨h, upper⟩

/-- r is the largest integer whose square does not exceed n. -/
def IsRoot (n r : Nat) : Prop := r * r ≤ n ∧ n < (r + 1) * (r + 1)

/-- The rounds for the bits below k find the root of an n whose root lies in [q, q + 2^k). -/
theorem isRoot_foldr_rootBit {n : Nat} (k : Nat) {q : Nat} (lower : q * q ≤ n)
    (upper : n < (q + 2 ^ k) * (q + 2 ^ k)) : IsRoot n ((List.range k).foldr (rootBit n) q) := by
  induction k generalizing q with
  | zero => exact ⟨lower, upper⟩
  | succ b ih =>
    obtain ⟨lower', upper'⟩ := rootBit_keeps_bracket lower upper
    rw [List.range_succ, List.foldr_append]
    exact ih lower' upper'

/-- The bits that `isqrt` tries suffice: 2^(⌊log₂ n⌋ / 2 + 1) is above the root of n. -/
theorem lt_sq_two_pow_half_log2 (n : Nat) : n < 2 ^ (n.log2 / 2 + 1) * 2 ^ (n.log2 / 2 + 1) :=
  calc n < 2 ^ (n.log2 + 1) := Nat.lt_log2_self
    _ ≤ 2 ^ (n.log2 / 2 + 1 + (n.log2 / 2 + 1)) := Nat.pow_le_pow_right (by decide) (by omega)
    _ = 2 ^ (n.log2 / 2 + 1) * 2 ^ (n.log2 / 2 + 1) := Nat.pow_add ..

theorem isRoot_isqrt (n : Nat) : IsRoot n (isqrt n) := by
  rw [isqrt_eq_foldr_rootBit]
  refine isRoot_foldr_rootBit _ (Nat.zero_le n) ?_
  rw [Nat.zero_add]
  exact lt_sq_two_pow_half_log2 n

/-- An n below the square of m has its root below m. -/
theorem IsRoot.lt_of_lt_sq {n r m : Nat} (root : IsRoot n r) (h : n < m * m) : r < m := by
  obtain ⟨lower, -⟩ := root
  refine Nat.lt_of_not_le fun hm => ?_
  have sq : m * m ≤ r * r := Nat.mul_le_mul hm hm
  omega

/-! ### The curve value (R12, R13) -/

theorem isRoot_curveValue_root (f : Nat) : IsRoot f (curveValue .root f) := isRoot_isqrt f

theorem curveValue_linear (f : Nat) : curveValue .linear f = f / 1024 := rfl

/-- 1,044,225 = 4095 × 255 is the top of F, and 1022² exceeds it. -/
theorem curveValue_root_le {f : Nat} (h : f ≤ 1044225) : curveValue .root f ≤ 1021 :=
  Nat.le_of_lt_succ ((isRoot_curveValue_root f).lt_of_lt_sq (by omega))

theorem curveValue_linear_le {f : Nat} (h : f ≤ 1044225) : curveValue .linear f ≤ 1019 := by
  rw [curveValue_linear]
  omega

/-! ### The lip deflection (R17) -/

theorem deflection_above {centre w lip : Nat} (h : (w : Int) < (lip : Int) - centre) :
    deflection centre w lip = (lip : Int) - centre - w := if_pos h

theorem deflection_below {centre w lip : Nat} (h : (lip : Int) - centre < -(w : Int)) :
    deflection centre w lip = (lip : Int) - centre + w := by
  have notAbove : ¬ (lip : Int) - centre > w := by omega
  simp only [deflection, if_neg notAbove, if_pos h]

theorem deflection_within {centre w lip : Nat} (h : ((lip : Int) - centre).natAbs ≤ w) :
    deflection centre w lip = 0 := by
  have notAbove : ¬ (lip : Int) - centre > w := by omega
  have notBelow : ¬ (lip : Int) - centre < -(w : Int) := by omega
  simp only [deflection, if_neg notAbove, if_neg notBelow]

/-- The dead zone leaves d' at 0 or with the sign of d. -/
theorem deflection_sign (centre w lip : Nat) :
    (0 < deflection centre w lip → 0 < (lip : Int) - centre)
      ∧ (deflection centre w lip < 0 → (lip : Int) - centre < 0) := by
  by_cases above : (w : Int) < (lip : Int) - centre
  · rw [deflection_above above]
    omega
  by_cases below : (lip : Int) - centre < -(w : Int)
  · rw [deflection_below below]
    omega
  · rw [deflection_within (by omega)]
    omega

/-- Settles O46: the root by the bracket that each bit halves, the deflection by where d lies to the dead zone. -/
theorem curveAndDeflection : Obligations.CurveAndDeflection := by
  unfold Obligations.CurveAndDeflection
  refine ⟨fun f => ?root, fun f => ⟨curveValue_linear f, curveValue_linear_le⟩, fun g hg => ?fullGain,
    fun centre w lip d hcentre hlip hd => ?deflection⟩
  case root =>
    obtain ⟨lower, upper⟩ := isRoot_curveValue_root f
    exact ⟨lower, upper, curveValue_root_le⟩
  case fullGain => exact Nat.lt_succ_of_le (curveValue_linear_le (by omega))
  case deflection =>
    subst hd
    exact ⟨by omega, deflection_within, deflection_above, deflection_below, deflection_sign centre w lip⟩

end Sys2Proof.Machine
end

section
/-! The chart commands (chapter 2): what an accepted edit leaves in the chart store, the lists it produces, and
O22, O23 and O25. -/

namespace Sys2Proof.Machine

/-! ### The entry stored for one as carried (R28) -/

/-- A byte is that of a number clamped at a top value exactly when the byte's own value is not clamped. -/
theorem be8_min_eq_iff {top : Nat} (b : Byte) (h : top < 256) :
    be8 (min top b.toNat) = [b] ↔ b.toNat ≤ top := by
  rw [be8, List.singleton_inj, ← BitVec.toNat_inj, BitVec.toNat_ofNat]
  omega

/-- The byte of a flag is a byte's own value exactly when the byte is 0 or 1. -/
theorem flag8_ne_zero_eq_iff (b : Byte) : flag8 (b != 0) = [b] ↔ b.toNat ≤ 1 := by
  by_cases zero : b = 0
  · subst zero
    decide
  · have notZero : b.toNat ≠ 0 := fun h => zero (BitVec.eq_of_toNat_eq h)
    have isSet : (b != 0) = true := bne_iff_ne.2 zero
    rw [isSet, flag8, be8, List.singleton_inj, ← BitVec.toNat_inj]
    simp only [if_true, BitVec.toNat_ofNat]
    omega

/-- A register key that is a key or absent is stored as the byte it is carried in. -/
theorem orFF_nameOf {b : Byte} (h : b.toNat ≤ 31 ∨ b = 0xFF) : orFF (nameOf 32 b) = [b] := by
  rcases h with isKey | rfl
  · have named : nameOf 32 b = some ⟨b.toNat, by omega⟩ := nameOf_of_toNat rfl
    simp [named, orFF, be8]
  · rfl

theorem entryRefused_eq_false {e : EntryParams} (h : EntryPasses e) : entryRefused e = false :=
  (entryRefused_false_iff e).2 h

theorem storedFrom_entryOf (e : EntryParams) : StoredFrom e (entryOf e) := by
  refine ⟨rfl, rfl, rfl, ?regKey, rfl, ?breathReg⟩
  case regKey =>
    by_cases isKey : e.regKey.toNat ≤ 31
    · have named : nameOf 32 e.regKey = some ⟨e.regKey.toNat, by omega⟩ := nameOf_of_toNat rfl
      simp [entryOf, named, isKey]
    · have unnamed : nameOf 32 e.regKey = none := nameOf_none (by omega)
      simp [entryOf, unnamed, isKey]
  case breathReg =>
    rw [Bool.eq_iff_iff]
    simp [entryOf, ← BitVec.toNat_inj]

/-- The stored bytes differ from those carried in the three fields that R28 clamps, and in no other. -/
theorem entryClamped_iff {e : EntryParams} (h : EntryPasses e) :
    entryClamped e = true ↔ EntryClamps e := by
  obtain ⟨-, regKeyOk⟩ := h
  have note := be8_min_eq_iff e.note (top := 127) (by omega)
  have step := be8_min_eq_iff e.step (top := 24) (by omega)
  have breathReg := flag8_ne_zero_eq_iff e.breathReg
  have bytes : entryBytes (entryOf e) = entryParamBytes e ↔
      be8 (min 127 e.note.toNat) = [e.note] ∧ be8 (min 24 e.step.toNat) = [e.step]
        ∧ flag8 (e.breathReg != 0) = [e.breathReg] := by
    simp [entryBytes, entryParamBytes, entryOf, orFF_nameOf regKeyOk, be8, flag8]
  rw [entryClamped, bne_iff_ne, ne_eq, bytes, note, step, breathReg, EntryClamps]
  omega

/-- An entry that passes is answered ADJUSTED exactly when one of its fields is clamped (R28, R31). -/
theorem okOr_entryClamped {e : EntryParams} (h : EntryPasses e) :
    (EntryClamps e → okOr (entryClamped e) = .adjusted)
      ∧ (¬ EntryClamps e → okOr (entryClamped e) = .ok) := by
  rw [← entryClamped_iff h]
  cases entryClamped e <;> simp [okOr]

/-! ### The store with an edit put in flight (R31) -/

/-- With no edit in flight each length is its list's (R25). -/
theorem ChartStore.length_eq_of_idle {x : ChartStore} (sound : x.ok) (idle : x.edit = none) (c : ChartId) :
    x.lengths[c] = x.lists[c].length := by
  obtain ⟨-, -, -, lengths⟩ := sound
  rw [ChartStore.editOk, idle] at lengths
  exact lengths c

@[simp] theorem putInFlight_lists (x : ChartStore) (c : ChartId) (cmd : Byte) (work : Nat) (l : List Entry) :
    (x.putInFlight c cmd work l).lists = x.lists := rfl

@[simp] theorem putInFlight_edit (x : ChartStore) (c : ChartId) (cmd : Byte) (work : Nat) (l : List Entry) :
    (x.putInFlight c cmd work l).edit = some ⟨c, cmd, work, l⟩ := rfl

@[simp] theorem putInFlight_freeCells (x : ChartStore) (c : ChartId) (cmd : Byte) (work : Nat) (l : List Entry) :
    (x.putInFlight c cmd work l).freeCells = x.freeCells + x.lengths[c] - l.length := rfl

theorem putInFlight_length_same (x : ChartStore) (c : ChartId) (cmd : Byte) (work : Nat)
    (l : List Entry) : (x.putInFlight c cmd work l).lengths[c] = l.length := by
  simp [ChartStore.putInFlight]

theorem putInFlight_length_other (x : ChartStore) {c j : ChartId} (cmd : Byte) (work : Nat) (l : List Entry)
    (h : j ≠ c) : (x.putInFlight c cmd work l).lengths[j] = x.lengths[j] := by
  have apart : c.val ≠ j.val := fun same => h (Fin.ext same.symm)
  simp [ChartStore.putInFlight, apart]

/-- An edit that keeps the list's length keeps every length. -/
theorem putInFlight_lengths_of_length_eq {x : ChartStore} {c : ChartId} {cmd : Byte} {work : Nat}
    {l : List Entry} (h : l.length = x.lengths[c]) : (x.putInFlight c cmd work l).lengths = x.lengths := by
  simp [ChartStore.putInFlight, h]

/-! ### The tests of an edit command (R31) -/

section Edit

variable {s : State} {cmd b : Byte} {params : List Byte} {k : ChartId} {posOk : Nat → Bool}
  {refused grows clamped : Bool} {work : Nat → Nat} {edit : List Entry → List Entry}

/-- An edit command that passes every test of R31 puts its edit in flight. -/
theorem accept_edit_passed (taken : takesCommand s cmd params = true) (idle : s.charts.edit = none)
    (named : b.toNat = k.val) (position : posOk s.charts.lengths[k] = true) (passes : refused = false)
    (room : grows = true → s.charts.lengths[k] < 128 ∧ 0 < s.charts.freeCells) :
    accept s cmd params (fun s => editCommand s cmd b posOk refused grows clamped work edit) =
      .next (State.answered
        { s with
          charts := s.charts.putInFlight k cmd (work s.charts.lengths[k]) (edit s.charts.lists[k]) }
        (okOr clamped) []) := by
  have fits : (grows && (decide (128 ≤ s.charts.lengths[k]) || s.charts.freeCells == 0)) = false := by
    cases grows with
    | false => rfl
    | true =>
      obtain ⟨short, free⟩ := room rfl
      simp only [Bool.true_and, Bool.or_eq_false_iff, decide_eq_false_iff_not, beq_eq_false_iff_ne]
      omega
  rw [accept_taken taken]
  simp [editCommand, idle, nameOf_of_toNat named, -Fin.getElem_fin, position, passes, fits]

/-- An edit command at a position that fails its test is refused with RANGE (R31). -/
theorem accept_edit_badPosition (taken : takesCommand s cmd params = true) (idle : s.charts.edit = none)
    (named : b.toNat = k.val) (position : posOk s.charts.lengths[k] = false) :
    accept s cmd params (fun s => editCommand s cmd b posOk refused grows clamped work edit) =
      .next (s.answered .range []) := by
  rw [accept_taken taken]
  simp [editCommand, idle, nameOf_of_toNat named, -Fin.getElem_fin, position, refuse]

end Edit

/-! ### Each edit command (R32 to R36) -/

section Commands

variable {s : State} {b p : Byte} {e : EntryParams} {k : ChartId}

theorem exec_chartAppend_passed (taken : portTakes s (.chartAppend b e) = true)
    (idle : s.charts.edit = none) (named : b.toNat = k.val) (passes : EntryPasses e)
    (short : s.charts.lengths[k] < 128) (free : 0 < s.charts.freeCells) :
    exec (.chartAppend b e) s = .next (State.answered
      { s with charts := s.charts.putInFlight k 0x11 1 (s.charts.lists[k] ++ [entryOf e]) }
      (okOr (entryClamped e)) []) :=
  accept_edit_passed taken idle named rfl (entryRefused_eq_false passes) fun _ => ⟨short, free⟩

theorem exec_chartInsert_passed (taken : portTakes s (.chartInsert b p e) = true)
    (idle : s.charts.edit = none) (named : b.toNat = k.val) (passes : EntryPasses e)
    (short : s.charts.lengths[k] < 128) (free : 0 < s.charts.freeCells)
    (position : p.toNat ≤ s.charts.lengths[k]) :
    exec (.chartInsert b p e) s = .next (State.answered
      { s with charts := s.charts.putInFlight k 0x12 (s.charts.lengths[k] - p.toNat + 1)
                (s.charts.lists[k].take p.toNat ++ entryOf e :: s.charts.lists[k].drop p.toNat) }
      (okOr (entryClamped e)) []) :=
  accept_edit_passed taken idle named (decide_eq_true position) (entryRefused_eq_false passes)
    fun _ => ⟨short, free⟩

theorem exec_chartInsert_badPosition (taken : portTakes s (.chartInsert b p e) = true)
    (idle : s.charts.edit = none) (named : b.toNat = k.val) (position : s.charts.lengths[k] < p.toNat) :
    exec (.chartInsert b p e) s = .next (s.answered .range []) :=
  accept_edit_badPosition taken idle named (decide_eq_false (Nat.not_le.2 position))

theorem exec_chartReplace_passed (taken : portTakes s (.chartReplace b p e) = true)
    (idle : s.charts.edit = none) (named : b.toNat = k.val) (passes : EntryPasses e)
    (position : p.toNat < s.charts.lengths[k]) :
    exec (.chartReplace b p e) s = .next (State.answered
      { s with charts := s.charts.putInFlight k 0x13 1 (s.charts.lists[k].set p.toNat (entryOf e)) }
      (okOr (entryClamped e)) []) :=
  accept_edit_passed taken idle named (decide_eq_true position) (entryRefused_eq_false passes) nofun

theorem exec_chartReplace_badPosition (taken : portTakes s (.chartReplace b p e) = true)
    (idle : s.charts.edit = none) (named : b.toNat = k.val) (position : s.charts.lengths[k] ≤ p.toNat) :
    exec (.chartReplace b p e) s = .next (s.answered .range []) :=
  accept_edit_badPosition taken idle named (decide_eq_false (Nat.not_lt.2 position))

theorem exec_chartRemove_passed (taken : portTakes s (.chartRemove b p) = true)
    (idle : s.charts.edit = none) (named : b.toNat = k.val) (position : p.toNat < s.charts.lengths[k]) :
    exec (.chartRemove b p) s = .next (State.answered
      { s with charts := s.charts.putInFlight k 0x14 (s.charts.lengths[k] - p.toNat)
                (s.charts.lists[k].eraseIdx p.toNat) } .ok []) :=
  accept_edit_passed taken idle named (decide_eq_true position) rfl nofun

theorem exec_chartRemove_badPosition (taken : portTakes s (.chartRemove b p) = true)
    (idle : s.charts.edit = none) (named : b.toNat = k.val) (position : s.charts.lengths[k] ≤ p.toNat) :
    exec (.chartRemove b p) s = .next (s.answered .range []) :=
  accept_edit_badPosition taken idle named (decide_eq_false (Nat.not_lt.2 position))

theorem exec_chartClear_passed (taken : portTakes s (.chartClear b) = true)
    (idle : s.charts.edit = none) (named : b.toNat = k.val) :
    exec (.chartClear b) s = .next (State.answered
      { s with charts := s.charts.putInFlight k 0x15 (max 1 s.charts.lengths[k]) [] } .ok []) :=
  accept_edit_passed taken idle named rfl rfl nofun

end Commands

/-! ### The list that an insertion produces (R33) -/

section Insertion

variable {l : List Entry} {p : Nat} (y : Entry)

theorem length_inserted (h : p ≤ l.length) : (l.take p ++ y :: l.drop p).length = l.length + 1 := by
  rw [List.length_append, List.length_cons, List.length_take_of_le h, List.length_drop]
  omega

theorem inserted_before {m : Nat} (h : p ≤ l.length) (hm : m < p) :
    (l.take p ++ y :: l.drop p)[m]? = l[m]? := by
  rw [List.getElem?_append_left (by simp; omega), List.getElem?_take_of_lt hm]

theorem inserted_at (h : p ≤ l.length) : (l.take p ++ y :: l.drop p)[p]? = some y := by
  simp [h]

theorem inserted_behind {m : Nat} (h : p ≤ l.length) (hm : p ≤ m) :
    (l.take p ++ y :: l.drop p)[m + 1]? = l[m]? := by
  have place : m + 1 - p = m - p + 1 := by omega
  have back : p + (m - p) = m := by omega
  rw [List.getElem?_append_right (by simp; omega), List.length_take_of_le h, place, List.getElem?_cons_succ,
    List.getElem?_drop, back]

theorem inserted_at_end (h : p = l.length) : l.take p ++ y :: l.drop p = l ++ [y] := by
  simp [h]

end Insertion

/-! ### The commands' effects -/

/-- Settles O22: the accepted edit is put in flight, and the list it produces is read place by place. -/
theorem chartAppendAndInsertEffect : Obligations.ChartAppendAndInsertEffect := by
  unfold Obligations.ChartAppendAndInsertEffect
  intro s b e k sound idle named
  have length := ChartStore.length_eq_of_idle sound idle k
  refine ⟨fun short free passes => ?accepted, fun p taken above =>
    exec_chartInsert_badPosition taken idle named above⟩
  obtain ⟨adjusted, asCarried⟩ := okOr_entryClamped passes
  refine ⟨fun taken => ?append, fun p taken position => ?insert⟩
  case append =>
    refine ⟨_, entryOf e, _, exec_chartAppend_passed taken idle named passes short free,
      storedFrom_entryOf e, adjusted, asCarried, putInFlight_lists .., ?newLength, ?newFree,
      fun j => putInFlight_length_other _ _ _ _, putInFlight_edit ..⟩
    case newLength => rw [putInFlight_length_same, List.length_append, List.length_singleton, length]
    case newFree =>
      rw [putInFlight_freeCells, List.length_append, List.length_singleton]
      omega
  case insert =>
    have within : p.toNat ≤ s.charts.lists[k].length := length ▸ position
    have longer := length_inserted (entryOf e) within
    refine ⟨_, entryOf e, _, _, exec_chartInsert_passed taken idle named passes short free position,
      storedFrom_entryOf e, adjusted, asCarried, putInFlight_lists .., ?newLength, ?newFree,
      fun j => putInFlight_length_other _ _ _ _, putInFlight_edit .., fun m => inserted_before _ within,
      inserted_at _ within, fun m => inserted_behind _ within,
      fun atEnd => inserted_at_end _ (atEnd.trans length)⟩
    case newLength => rw [putInFlight_length_same, longer, length]
    case newFree =>
      rw [putInFlight_freeCells, longer]
      omega

/-- Settles O23: the accepted edit is put in flight, and the list it produces is read place by place. -/
theorem chartReplaceRemoveAndClearEffect : Obligations.ChartReplaceRemoveAndClearEffect := by
  unfold Obligations.ChartReplaceRemoveAndClearEffect
  intro s b p k sound idle named
  have length := ChartStore.length_eq_of_idle sound idle k
  refine ⟨fun e taken => ⟨fun position passes => ?replace, exec_chartReplace_badPosition taken idle named⟩,
    fun taken => ⟨fun position => ?remove, exec_chartRemove_badPosition taken idle named⟩,
    fun taken => ?clear⟩
  case replace =>
    obtain ⟨adjusted, asCarried⟩ := okOr_entryClamped passes
    have sameLength : (s.charts.lists[k].set p.toNat (entryOf e)).length = s.charts.lengths[k] :=
      List.length_set.trans length.symm
    refine ⟨_, entryOf e, _, _, exec_chartReplace_passed taken idle named passes position,
      storedFrom_entryOf e, adjusted, asCarried, putInFlight_lists ..,
      putInFlight_lengths_of_length_eq sameLength, ?sameFree, putInFlight_edit .., List.length_set,
      List.getElem?_set_self (length ▸ position), fun m other => List.getElem?_set_ne other.symm⟩
    rw [putInFlight_freeCells, sameLength]
    omega
  case remove =>
    have shorter := List.length_eraseIdx_of_lt (length ▸ position : p.toNat < s.charts.lists[k].length)
    refine ⟨_, _, exec_chartRemove_passed taken idle named position, putInFlight_lists .., ?newLength,
      ?newFree, fun j => putInFlight_length_other _ _ _ _, putInFlight_edit ..,
      fun m before => List.getElem?_eraseIdx_of_lt before,
      fun m behind => List.getElem?_eraseIdx_of_ge behind⟩
    case newLength =>
      rw [putInFlight_length_same, shorter]
      omega
    case newFree =>
      rw [putInFlight_freeCells, shorter]
      omega
  case clear =>
    refine ⟨_, exec_chartClear_passed taken idle named, putInFlight_lists .., putInFlight_length_same ..,
      putInFlight_freeCells .., fun j => putInFlight_length_other _ _ _ _, ?workCount⟩
    have workCount : max 1 s.charts.lengths[k] = if s.charts.lengths[k] = 0 then 1 else s.charts.lengths[k] := by
      split <;> omega
    rw [putInFlight_edit, workCount]

/-! ### Reading the store (R41, R42) -/

section Reads

variable {s : State} {b p : Byte} {k : ChartId}

theorem chartReadAnswer_busy (h : s.charts.edit ≠ none) : chartReadAnswer b p s = refuse s .busy :=
  if_pos (Option.isSome_iff_ne_none.2 h)

theorem chartReadAnswer_noChart (idle : s.charts.edit = none) (h : 8 ≤ b.toNat) :
    chartReadAnswer b p s = refuse s .range := by
  simp [chartReadAnswer, idle, nameOf_none h]

theorem chartReadAnswer_noEntry (idle : s.charts.edit = none) (named : b.toNat = k.val)
    (h : s.charts.lists[k][p.toNat]? = none) : chartReadAnswer b p s = refuse s .range := by
  simp [chartReadAnswer, idle, nameOf_of_toNat named, -Fin.getElem_fin, h]

theorem chartReadAnswer_entry {e : Entry} (idle : s.charts.edit = none) (named : b.toNat = k.val)
    (h : s.charts.lists[k][p.toNat]? = some e) :
    chartReadAnswer b p s = ⟨.ok, be8 s.charts.lengths[k] ++ entryBytes e, s⟩ := by
  simp [chartReadAnswer, idle, nameOf_of_toNat named, -Fin.getElem_fin, h]

end Reads

theorem exec_chartRead_taken {s : State} {b p : Byte} (taken : portTakes s (.chartRead b p) = true) :
    exec (.chartRead b p) s = .next ((chartReadAnswer b p s).state.answered (chartReadAnswer b p s).code
      (chartReadAnswer b p s).record) :=
  accept_taken taken

theorem exec_chartInfo_taken {s : State} (taken : portTakes s .chartInfo = true) :
    exec .chartInfo s = .next (s.answered .ok (chartInfoRecord s.charts)) :=
  accept_taken taken

/-- The lengths of C0 to C7, a byte each (R42). -/
theorem flatMap_be8_toList (v : Vector Nat 8) :
    v.toList.flatMap be8 = (List.finRange 8).map fun c : ChartId => BitVec.ofNat 8 v[c] := by
  have entries : v.toList = (List.finRange 8).map fun c : ChartId => v[c] := by
    apply List.ext_getElem <;> simp
  rw [entries, List.flatMap_map, List.map_eq_flatMap]
  rfl

/-- Settles O25: each case of the two commands' answers, and their records byte by byte. -/
theorem chartReadsReturnTheStore : Obligations.ChartReadsReturnTheStore := by
  unfold Obligations.ChartReadsReturnTheStore
  refine ⟨fun s b p taken => ⟨fun busy => ?busy, fun idle noChart => ?noChart, fun k idle sound named =>
    ⟨fun above => ?above, fun e stored => ?entry⟩⟩, fun s taken => ?info⟩
  case busy => rw [exec_chartRead_taken taken, chartReadAnswer_busy busy, refuse]
  case noChart => rw [exec_chartRead_taken taken, chartReadAnswer_noChart idle noChart, refuse]
  case above =>
    have noEntry : s.charts.lists[k][p.toNat]? = none :=
      List.getElem?_eq_none (ChartStore.length_eq_of_idle sound idle k ▸ above)
    rw [exec_chartRead_taken taken, chartReadAnswer_noEntry idle named noEntry, refuse]
  case entry =>
    rw [exec_chartRead_taken taken, chartReadAnswer_entry idle named stored]
    obtain ⟨mask, pattern, note, regKey, step, breathReg⟩ := e
    cases regKey <;> cases breathReg <;> rfl
  case info =>
    rw [exec_chartInfo_taken taken, chartInfoRecord, flatMap_be8_toList]
    cases s.charts.edit <;> rfl

end Sys2Proof.Machine
end

section
/-! STATUS_READ (R167): a record made of groups of fixed size holds each group at the sum of the sizes before it; the
entries of a table of bytes; the groups of the device record, and O10. -/

namespace Sys2Proof.Machine

/-! ### Groups in a record

That a group g begins at place a of a record r is written `g <+: r.drop a`. -/

theorem prefix_drop_flatten {groups : List (List Byte)} {i : Nat} {g : List Byte} (h : groups[i]? = some g) :
    g <+: groups.flatten.drop ((groups.map List.length).take i).sum := by
  induction groups generalizing i with
  | nil => cases h
  | cons first rest ih =>
    cases i with
    | zero =>
      cases h
      exact List.prefix_append ..
    | succ i =>
      rw [List.map_cons, List.take_succ_cons, List.sum_cons, List.flatten_cons, List.drop_length_add_append]
      exact ih h

/-- The byte at place j of a group stands j places after the group's first. -/
theorem getElem?_of_prefix_drop {g r : List Byte} {a j : Nat} (h : g <+: r.drop a) (within : j < g.length) :
    r[a + j]? = g[j]? := by
  rw [← List.getElem?_drop, List.prefix_iff_getElem?.1 h j within, List.getElem?_eq_getElem within]

/-- The bytes from place j of a group on stand from j places after the group's first on. -/
theorem take_drop_of_prefix_drop {g r : List Byte} {a j k : Nat} (h : g <+: r.drop a)
    (within : j + k ≤ g.length) : (r.drop (a + j)).take k = (g.drop j).take k := by
  obtain ⟨rest, h⟩ := h
  have inGroup : k ≤ (g.drop j).length := by rw [List.length_drop]; omega
  rw [← List.drop_drop, ← h, List.drop_append_of_le_length (by omega), List.take_append_of_le_length inGroup]

/-! ### Tables of bytes -/

@[simp] theorem length_padTo (m : Nat) (fill : Byte) (l : List Byte) : (padTo m fill l).length = m := by
  rw [padTo, List.length_take_of_le]
  rw [List.length_append, List.length_replicate]
  exact Nat.le_add_left m l.length

theorem getElem?_padTo {m n : Nat} (fill : Byte) (l : List Byte) (h : n < m) :
    (padTo m fill l)[n]? = some (l[n]?.getD fill) := by
  rw [padTo, List.getElem?_take_of_lt h]
  rcases Nat.lt_or_ge n l.length with listed | beyond
  · rw [List.getElem?_append_left listed, List.getElem?_eq_getElem listed]
    rfl
  · have filled : n - l.length < m := by omega
    rw [List.getElem?_append_right beyond, List.getElem?_replicate_of_lt filled, List.getElem?_eq_none beyond]
    rfl

theorem length_flatMap_be8 {α : Type} (f : α → Nat) (l : List α) :
    (l.flatMap fun x => be8 (f x)).length = l.length := by
  induction l with
  | nil => rfl
  | cons x l ih => rw [List.flatMap_cons, List.length_append, ih, List.length_cons, Nat.add_comm]; rfl

theorem getElem?_flatMap_be8 {α : Type} (f : α → Nat) (l : List α) (n : Nat) :
    (l.flatMap fun x => be8 (f x))[n]? = l[n]?.map fun x => BitVec.ofNat 8 (f x) := by
  rw [← List.getElem?_map, List.map_eq_flatMap]
  rfl

section Table

variable {α : Type} {f : α → List Byte} {k : Nat}

theorem length_flatMap_of_size (size : ∀ x, (f x).length = k) (l : List α) :
    (l.flatMap f).length = k * l.length := by
  induction l with
  | nil => rfl
  | cons x l ih =>
    rw [List.flatMap_cons, List.length_append, size, ih, List.length_cons, Nat.mul_succ, Nat.add_comm]

/-- Entry n of a table of k-byte entries begins at place k × n. -/
theorem take_drop_flatMap_append (size : ∀ x, (f x).length = k) {l : List α} {n : Nat} {x : α}
    (h : l[n]? = some x) (rest : List Byte) : ((l.flatMap f ++ rest).drop (k * n)).take k = f x := by
  induction l generalizing n with
  | nil => cases h
  | cons first l ih =>
    rw [List.flatMap_cons, List.append_assoc]
    cases n with
    | zero =>
      cases h
      exact List.take_left' (size x)
    | succ n =>
      have place : k * (n + 1) = (f first).length + k * n := by rw [size, Nat.mul_succ, Nat.add_comm]
      rw [place, List.drop_length_add_append]
      exact ih h

/-- A padded table holds its entries, and fill bytes at the places of those it does not have. -/
theorem take_drop_padTo_flatMap (size : ∀ x, (f x).length = k) {m n : Nat} (fill : Byte) (l : List α)
    (fits : k * n + k ≤ m) :
    ((padTo m fill (l.flatMap f)).drop (k * n)).take k = l[n]?.elim (List.replicate k fill) f := by
  have unpadded : k ≤ m - k * n := by omega
  rw [padTo, List.drop_take, List.take_take, Nat.min_eq_left unpadded]
  cases h : l[n]? with
  | some x => exact take_drop_flatMap_append size h _
  | none =>
    have beyond : (l.flatMap f).length ≤ k * n := by
      rw [length_flatMap_of_size size]
      exact Nat.mul_le_mul_left k (List.getElem?_eq_none_iff.1 h)
    have filled : k ≤ m - (k * n - (l.flatMap f).length) := by omega
    rw [List.drop_append, List.drop_of_length_le beyond, List.nil_append, List.drop_replicate,
      List.take_replicate, Nat.min_eq_left filled]
    rfl

end Table

/-! ### The device record (R167) -/

theorem getElem?_toList {α : Type} {n : Nat} (v : Vector α n) (i : Fin n) : v.toList[i.val]? = some v[i] := by
  rw [Vector.getElem?_toList, Vector.getElem?_eq_getElem i.isLt]
  rfl

theorem getElem?_allStations (i : StationId) : allStations[i.val]? = some i := by
  have within : i.val < (List.finRange 4).length := by rw [List.length_finRange]; exact i.isLt
  rw [allStations, List.getElem?_eq_getElem within, List.getElem_finRange]
  rfl

theorem length_claimBytes (c : Claim) : (claimBytes c).length = 4 := rfl

theorem length_starvedBytes (e : Starved) : (starvedBytes e).length = 3 := rfl

theorem length_descriptorBytes (r : Option WaveRegion) : (descriptorBytes r).length = 4 := by
  cases r <;> rfl

/-- The groups of the device record in order. -/
def statusGroups (s : State) : List (List Byte) :=
  [be32 s.timebase.toNat,
   s.stations.toList.flatMap fun x => be8 x.state.number,
   be8 s.freeList.length,
   padTo 32 0xFF (s.freeList.flatMap fun v => be8 v.val),
   allStations.flatMap fun i => be8 (stationCount s i),
   be8 s.claims.length,
   padTo 48 0xFF (s.claims.flatMap claimBytes),
   be8 s.starve.length,
   padTo 36 0xFF (s.starve.flatMap starvedBytes),
   be8 s.tagCounter,
   s.waves.toList.flatMap descriptorBytes,
   flag8 s.faults.alert]

theorem statusRecord_eq_flatten (s : State) : statusRecord s = (statusGroups s).flatten := by
  simp only [statusRecord, statusGroups, List.flatten_cons, List.flatten_nil, List.append_assoc, List.append_nil]

/-- The sizes of those groups. -/
def statusSizes : List Nat := [4, 4, 1, 32, 4, 1, 48, 1, 36, 1, 128, 1]

theorem length_statusGroups (s : State) : (statusGroups s).map List.length = statusSizes := by
  have states : (s.stations.toList.flatMap fun x => be8 x.state.number).length = 4 := by
    rw [length_flatMap_be8, Vector.length_toList]
  have counts : (allStations.flatMap fun i => be8 (stationCount s i)).length = 4 := rfl
  have descriptors : (s.waves.toList.flatMap descriptorBytes).length = 128 := by
    rw [length_flatMap_of_size length_descriptorBytes, Vector.length_toList]
  simp only [statusGroups, List.map_cons, List.map_nil, states, counts, descriptors, length_padTo]
  rfl

theorem length_statusRecord (s : State) : (statusRecord s).length = 261 := by
  rw [statusRecord_eq_flatten, List.length_flatten, length_statusGroups]
  rfl

/-- Group i of the device record begins at the sum of the sizes of those before it. -/
theorem statusGroup_prefix_drop (s : State) (i : Nat) {g : List Byte} (h : (statusGroups s)[i]? = some g) :
    g <+: (statusRecord s).drop (statusSizes.take i).sum := by
  rw [statusRecord_eq_flatten, ← length_statusGroups s]
  exact prefix_drop_flatten h

theorem exec_statusRead_taken {s : State} (taken : portTakes s .statusRead = true) :
    exec .statusRead s = .next (s.answered .ok (statusRecord s)) :=
  accept_taken taken

/-- Settles O10: each group at its place, then each entry within its group. -/
theorem statusReadRecord : Obligations.StatusReadRecord := by
  unfold Obligations.StatusReadRecord
  intro s taken
  have timebase : be32 s.timebase.toNat <+: (statusRecord s).drop 0 := statusGroup_prefix_drop s 0 rfl
  have states : (s.stations.toList.flatMap fun x => be8 x.state.number) <+: (statusRecord s).drop 4 :=
    statusGroup_prefix_drop s 1 rfl
  have freeCount : be8 s.freeList.length <+: (statusRecord s).drop 8 := statusGroup_prefix_drop s 2 rfl
  have free : padTo 32 0xFF (s.freeList.flatMap fun v => be8 v.val) <+: (statusRecord s).drop 9 :=
    statusGroup_prefix_drop s 3 rfl
  have counts : (allStations.flatMap fun i => be8 (stationCount s i)) <+: (statusRecord s).drop 41 :=
    statusGroup_prefix_drop s 4 rfl
  have claimCount : be8 s.claims.length <+: (statusRecord s).drop 45 := statusGroup_prefix_drop s 5 rfl
  have claims : padTo 48 0xFF (s.claims.flatMap claimBytes) <+: (statusRecord s).drop 46 :=
    statusGroup_prefix_drop s 6 rfl
  have starveCount : be8 s.starve.length <+: (statusRecord s).drop 94 := statusGroup_prefix_drop s 7 rfl
  have starve : padTo 36 0xFF (s.starve.flatMap starvedBytes) <+: (statusRecord s).drop 95 :=
    statusGroup_prefix_drop s 8 rfl
  have tag : be8 s.tagCounter <+: (statusRecord s).drop 131 := statusGroup_prefix_drop s 9 rfl
  have descriptors : s.waves.toList.flatMap descriptorBytes <+: (statusRecord s).drop 132 :=
    statusGroup_prefix_drop s 10 rfl
  have alert : flag8 s.faults.alert <+: (statusRecord s).drop 260 := statusGroup_prefix_drop s 11 rfl
  refine ⟨statusRecord s, exec_statusRead_taken taken, length_statusRecord s,
    (List.prefix_iff_eq_take.1 timebase).symm, fun i => ?states,
    getElem?_of_prefix_drop freeCount Nat.one_pos, fun n hn => ?free, fun i => ?counts,
    getElem?_of_prefix_drop claimCount Nat.one_pos, fun n hn => ?claims,
    getElem?_of_prefix_drop starveCount Nat.one_pos, fun n hn => ?starve,
    getElem?_of_prefix_drop tag Nat.one_pos, fun w => ?descriptors, ?alert⟩
  case states =>
    have entry : s.stations.toList[i.val]? = some (s.station i) := getElem?_toList s.stations i
    have within : i.val < (s.stations.toList.flatMap fun x => be8 x.state.number).length := by
      rw [length_flatMap_be8, Vector.length_toList]
      exact i.isLt
    rw [getElem?_of_prefix_drop states within, getElem?_flatMap_be8, entry]
    rfl
  case free =>
    rw [getElem?_of_prefix_drop free (by rwa [length_padTo]), getElem?_padTo _ _ hn, getElem?_flatMap_be8]
    cases s.freeList[n]? <;> rfl
  case counts =>
    have entry : allStations[i.val]? = some i := getElem?_allStations i
    rw [getElem?_of_prefix_drop counts i.isLt, getElem?_flatMap_be8, entry]
    rfl
  case claims =>
    rw [take_drop_of_prefix_drop claims (by rw [length_padTo]; omega),
      take_drop_padTo_flatMap length_claimBytes _ _ (by omega)]
    cases s.claims[n]? <;> rfl
  case starve =>
    rw [take_drop_of_prefix_drop starve (by rw [length_padTo]; omega),
      take_drop_padTo_flatMap length_starvedBytes _ _ (by omega)]
    cases s.starve[n]? <;> rfl
  case descriptors =>
    have within : 4 * w.val + 4 ≤ (s.waves.toList.flatMap descriptorBytes).length := by
      rw [length_flatMap_of_size length_descriptorBytes, Vector.length_toList]
      omega
    have entry : s.waves.toList[w.val]? = some s.waves[w] := getElem?_toList s.waves w
    rw [take_drop_of_prefix_drop descriptors within, ← List.append_nil (s.waves.toList.flatMap descriptorBytes),
      take_drop_flatMap_append length_descriptorBytes entry]
    cases s.waves[w] <;> rfl
  case alert =>
    have byte : (statusRecord s)[260]? = (flag8 s.faults.alert)[0]? := getElem?_of_prefix_drop alert Nat.one_pos
    rw [byte]
    cases s.faults.alert <;> rfl

end Sys2Proof.Machine
end

section
/-! Facts about lists and small numbers that the later parts need and core Lean has under no name: these files are
compiled with core Lean alone as well as beside Mathlib. -/

namespace Sys2Proof.Machine

/-! ### The stations and the charts, one by one -/

theorem station_cases : ∀ i : StationId, i = 0 ∨ i = 1 ∨ i = 2 ∨ i = 3 := by decide

theorem chart_cases : ∀ c : ChartId, c = 0 ∨ c = 1 ∨ c = 2 ∨ c = 3 ∨ c = 4 ∨ c = 5 ∨ c = 6 ∨ c = 7 := by decide

/-! ### Lists without duplicates -/

section Nodup
variable {α β : Type} {f : α → β}

theorem nodup_map_of_inj_on {l : List α} (h : l.Nodup) (inj : ∀ a ∈ l, ∀ b ∈ l, f a = f b → a = b) :
    (l.map f).Nodup :=
  List.pairwise_map.2 (List.Pairwise.imp_of_mem (fun ha hb ne e => ne (inj _ ha _ hb e)) h)

theorem nodup_map_iff_of_inj (inj : ∀ a b, f a = f b → a = b) {l : List α} : (l.map f).Nodup ↔ l.Nodup :=
  ⟨fun h => (List.pairwise_map.1 h).imp fun ne e => ne (congrArg f e),
    fun h => nodup_map_of_inj_on h fun a _ b _ => inj a b⟩

theorem eq_of_nodup_map {l : List α} (h : (l.map f).Nodup) {a b : α} (ha : a ∈ l) (hb : b ∈ l) (e : f a = f b) :
    a = b := by
  induction l with
  | nil => cases ha
  | cons x l ih =>
    obtain ⟨apart, rest⟩ := List.nodup_cons.1 h
    rcases List.mem_cons.1 ha with rfl | ina
    · rcases List.mem_cons.1 hb with rfl | inb
      · rfl
      · exact absurd (e ▸ List.mem_map_of_mem inb) apart
    · rcases List.mem_cons.1 hb with rfl | inb
      · exact absurd (e ▸ List.mem_map_of_mem ina) apart
      · exact ih rest ina inb

/-- The pigeonhole principle. -/
theorem length_le_of_subset [DecidableEq α] {l l' : List α} (h : l.Nodup) (sub : ∀ a ∈ l, a ∈ l') :
    l.length ≤ l'.length := by
  induction l generalizing l' with
  | nil => exact Nat.zero_le _
  | cons x l ih =>
    obtain ⟨new, rest⟩ := List.nodup_cons.1 h
    have member : x ∈ l' := sub x List.mem_cons_self
    have shorter := ih (l' := l'.erase x) rest fun a ha =>
      (List.mem_erase_of_ne (ne_of_mem_of_not_mem ha new)).2 (sub a (List.mem_cons_of_mem x ha))
    rw [List.length_erase_of_mem member] at shorter
    have := List.length_pos_of_mem member
    rw [List.length_cons]
    omega

end Nodup

theorem exists_mem_cons {α : Type} {p : α → Prop} {a : α} {l : List α} :
    (∃ x ∈ a :: l, p x) ↔ p a ∨ ∃ x ∈ l, p x :=
  ⟨fun ⟨x, hx, px⟩ => (List.mem_cons.1 hx).elim (fun e => .inl (e ▸ px)) fun hx => .inr ⟨x, hx, px⟩,
    fun h => h.elim (fun pa => ⟨a, List.mem_cons_self, pa⟩) fun ⟨x, hx, px⟩ => ⟨x, List.mem_cons_of_mem a hx, px⟩⟩

/-- Induction on a list by its last element. -/
theorem list_append_induction {α : Type} {motive : List α → Prop} (nil : motive [])
    (append : ∀ l a, motive l → motive (l ++ [a])) (l : List α) : motive l := by
  have turned : ∀ r : List α, motive r.reverse := fun r => by
    induction r with
    | nil => exact nil
    | cons a r ih => rw [List.reverse_cons]; exact append _ _ ih
  exact l.reverse_reverse ▸ turned l.reverse

theorem eq_nil_or_append_singleton {α : Type} (l : List α) : l = [] ∨ ∃ l' a, l = l' ++ [a] := by
  induction l using list_append_induction with
  | nil => exact .inl rfl
  | append l a _ => exact .inr ⟨l, a, rfl⟩

theorem sum_map_mul {α : Type} (k : Nat) (g : α → Nat) (l : List α) :
    (l.map fun a => k * g a).sum = k * (l.map g).sum := by
  induction l with
  | nil => rfl
  | cons a l ih => rw [List.map_cons, List.sum_cons, ih, List.map_cons, List.sum_cons, Nat.mul_add]

/-! ### Numbers -/

/-- A property that some number has, a least number has. -/
theorem exists_least {p : Nat → Prop} {n : Nat} (h : p n) : ∃ k, k ≤ n ∧ p k ∧ ∀ m, m < k → ¬ p m := by
  induction n using Nat.strongRecOn with
  | ind n ih =>
    by_cases below : ∃ m, m < n ∧ p m
    · obtain ⟨m, small, pm⟩ := below
      obtain ⟨k, most, rest⟩ := ih m small pm
      exact ⟨k, Nat.le_trans most (Nat.le_of_lt small), rest⟩
    · exact ⟨n, Nat.le_refl n, h, fun m small pm => below ⟨m, small, pm⟩⟩

end Sys2Proof.Machine
end

section
/-! What one row can do to the part, said once: the control port takes the commands up and answers them, and behind it
a row has one of a few effects. What every step keeps (O54 to O58) is then proved effect by effect. -/

namespace Sys2Proof.Machine

/-! ### A step from its row's meaning -/

/-- A command of the port has changed nothing, or has left what its own rule makes of the part. -/
theorem next_of_accept {s t : State} {cmd : Byte} {params : List Byte} {effect : State → Answer}
    (h : accept s cmd params effect = .next t) :
    t = s ∨ t = (effect s).state.answered (effect s).code (effect s).record := by
  unfold accept at h
  split at h
  · exact .inr (Host.Outcome.next.inj h).symm
  · exact .inl (Host.Outcome.next.inj h).symm

/-- Stations, stores, voice pool and clip states are the same: of the part, all but port, fault capture and device. -/
structure SameInside (u t : State) : Prop where
  stations : t.stations = u.stations
  charts : t.charts = u.charts
  templates : t.templates = u.templates
  waves : t.waves = u.waves
  memory : t.memory = u.memory
  voices : t.voices = u.voices
  freeList : t.freeList = u.freeList
  claims : t.claims = u.claims
  starve : t.starve = u.starve
  tagCounter : t.tagCounter = u.tagCounter
  clip : t.audio.clip = u.audio.clip

theorem SameInside.rfl {s : State} : SameInside s s :=
  ⟨.refl _, .refl _, .refl _, .refl _, .refl _, .refl _, .refl _, .refl _, .refl _, .refl _, .refl _⟩

theorem sameInside_answered (s : State) (code : ResultCode) (record : List Byte) :
    SameInside s (s.answered code record) := ⟨rfl, rfl, rfl, rfl, rfl, rfl, rfl, rfl, rfl, rfl, rfl⟩

theorem sameInside_nextDraw (s : State) : SameInside s (nextDraw s) :=
  ⟨rfl, rfl, rfl, rfl, rfl, rfl, rfl, rfl, rfl, rfl, rfl⟩

theorem SameInside.trans {s t u : State} (h : SameInside s t) (k : SameInside t u) : SameInside s u :=
  ⟨k.stations.trans h.stations, k.charts.trans h.charts, k.templates.trans h.templates, k.waves.trans h.waves,
    k.memory.trans h.memory, k.voices.trans h.voices, k.freeList.trans h.freeList, k.claims.trans h.claims,
    k.starve.trans h.starve, k.tagCounter.trans h.tagCounter, k.clip.trans h.clip⟩

/-- An edit that met the tests of R31 is put in flight (R31 to R36). -/
structure Edited (x y : ChartStore) : Prop where
  idle : x.edit = none
  inFlight : ∃ (c : ChartId) (cmd : Byte) (work : Nat) (l : List Entry), y = x.putInFlight c cmd work l
    ∧ (x.ok → (1 ≤ work ∧ work ≤ 128) ∧ l.length ≤ 128 ∧ l.length ≤ x.freeCells + x.lengths[c])

/-- Station i takes part in the link's traffic: it is neither DISABLED nor OFFLINE. -/
def Joined (s : State) (i : StationId) : Prop :=
  (s.station i).state ≠ .disabled ∧ (s.station i).state ≠ .offline

/-- The effects that a row can have behind the port, each with what the row has tested. -/
inductive Effect (s : State) : State → Prop
  | nothing : Effect s s
  | poweredOn : Effect s State.reset
  | cleared : Effect s { s with memory := [] }
  | pinReset : Effect s (pinResetState s)
  | settings (i : StationId) (p : StationSetParams) (template : TemplateId) (chart : ChartId)
      (fits : p.reserve.toNat + otherReserves s i ≤ 32) : Effect s (applySettings s i (settingsOf p template chart))
  | senses (i : StationId) (x : Vector KeySense 32) : Effect s (s.updStation i fun y => { y with keySense := x })
  | countersCleared (i : StationId) : Effect s (s.updStation i Station.countersCleared)
  | restarted (i : StationId) : Effect s (restartStation s i)
  | panicked : Effect s { panicPool s with stations := s.stations.map Station.panicked }
  | edited {y : ChartStore} (h : Edited s.charts y) : Effect s { s with charts := y }
  | editCompleted (order : List StationId) (h : s.charts.edit.isSome = true) :
      Effect s ((inOrder order allStations).foldl resumeStall { s with charts := s.charts.complete })
  | templates (x : Vector (List Layer) 16) : Effect s { s with templates := x }
  | waves (x : Vector (Option WaveRegion) 32) : Effect s { s with waves := x }
  | written (a : Nat) (xs : List Half) (within : a + xs.length ≤ 65536) :
      Effect s { s with memory := s.memory.writeRun a xs }
  | heard (i : StationId) (T : Nat) (levels : List Bool) (listens : lineIgnored s i = false) :
      Effect s (hearLevels i T (s.station i).link.character s levels)
  | synced (i : StationId) (T : Nat) (listens : lineIgnored s i = false) :
      Effect s (handSync ((dropIncomplete s i).updLink i fun l => l.synced T) i)
  | syncTaken (i : StationId) (h : (s.station i).syncHanded = true) : Effect s (takeSync s i)
  | hello (i : StationId) (joined : Joined s i) (cls keyCount preference seq : Nat) :
      Effect s (takeHello (dropBuffer s i) i cls keyCount preference seq)
  | played (i : StationId) (joined : Joined s i) (keys : Word) (breath lip seq : Nat) :
      Effect s (takePlay (dropBuffer s i) i keys breath lip seq)
  | hushed (i : StationId) (joined : Joined s i) : Effect s (takeHush (dropBuffer s i) i)
  | replyEnded (i : StationId) : Effect s (s.updLink i Link.endReply)
  | settled (i : StationId) (live : (s.station i).state = .live) :
      Effect s (resolveOrStall (s.updFingering i fun g => { g with settle := .stopped }) i .expiry)
  | silent (i : StationId) : Effect s (takeSilence s i)
  | sampled (voices : List VoiceId) (stations : List StationId) : Effect s (samplePeriod voices stations s)
  | glided (v : VoiceId) (sounds : (s.voice v).state = .sounding) :
      Effect s (s.updVoice v fun x => x.glideStep (glideRate s x) (.advanced 48))
  | retired (v : VoiceId) (h : (s.voice v).state = .faulted) : Effect s (freeVoice s v)
  | released (v : VoiceId) (h : (s.voice v).state = .releasing) : Effect s (freeVoice s v)
  | drained (v : VoiceId) (h : (s.voice v).state = .draining) (orphan : claimOf s v = none) :
      Effect s (freeVoice s v)
  | handedOver (v : VoiceId) (c : Claim) (h : (s.voice v).state = .draining) (bound : claimOf s v = some c) :
      Effect s (handOver s c)

/-- A row leaves t where an effect leaves the same inside. -/
def Results (s t : State) : Prop := ∃ u, Effect s u ∧ SameInside u t

theorem Effect.results {s t : State} (h : Effect s t) : Results s t := ⟨t, h, .rfl⟩

theorem SameInside.results {s t : State} (h : SameInside s t) : Results s t := ⟨s, .nothing, h⟩

theorem results_refuse (s : State) (code : ResultCode) : Results s (refuse s code).state := Effect.nothing.results

/-- A command's result is that of its own rule. -/
theorem results_of_accept {s t : State} {cmd : Byte} {params : List Byte} {effect : State → Answer}
    (h : accept s cmd params effect = .next t) (rule : Results s (effect s).state) : Results s t := by
  rcases next_of_accept h with rfl | rfl
  · exact Effect.nothing.results
  · obtain ⟨u, he, hu⟩ := rule
    exact ⟨u, he, hu.trans (sameInside_answered _ _ _)⟩

/-! ### The chart commands -/

/-- A command that passes the tests of R31 puts an edit in flight; any other changes nothing. -/
theorem results_editCommand {s : State} {cmd chart : Byte} {posOk : Nat → Bool}
    {refused grows clamped : Bool} {work : Nat → Nat} {edit : List Entry → List Entry}
    (bounds : ∀ l : List Entry, posOk l.length = true → l.length ≤ 128 → (grows = true → l.length < 128) →
      (1 ≤ work l.length ∧ work l.length ≤ 128) ∧ (edit l).length ≤ l.length + grows.toNat) :
    Results s (editCommand s cmd chart posOk refused grows clamped work edit).state := by
  unfold editCommand
  split
  · exact results_refuse s _
  next idle =>
  split
  · exact results_refuse s _
  next c _ =>
  dsimp only
  split
  · exact results_refuse s _
  next position =>
  split
  · exact results_refuse s _
  split
  · exact results_refuse s _
  next fits =>
  have idle : s.charts.edit = none := by simpa using idle
  refine Effect.results (.edited ⟨idle, c, cmd, _, _, rfl, fun sound => ?_⟩)
  have length := ChartStore.length_eq_of_idle sound idle c
  have most : s.charts.lists[c].length ≤ 128 := (sound.2.2.1 c).2
  rw [length] at position fits ⊢
  have room : grows = true → s.charts.lists[c].length < 128 ∧ 0 < s.charts.freeCells := fun h => by
    simp only [h, Bool.true_and, Bool.or_eq_true, decide_eq_true_eq, beq_iff_eq, not_or] at fits
    omega
  obtain ⟨work, longer⟩ := bounds _ (by simpa using position) most fun h => (room h).1
  refine ⟨work, ?_⟩
  cases grows with
  | false => simp only [Bool.toNat_false] at longer; omega
  | true => have := room rfl; simp only [Bool.toNat_true] at longer; omega

theorem results_chartAppend (s : State) (chart : Byte) (e : EntryParams) :
    Results s (chartAppendAnswer chart e s).state :=
  results_editCommand fun _ _ _ _ => ⟨⟨by decide, by decide⟩, by simp⟩

theorem results_chartInsert (s : State) (chart pos : Byte) (e : EntryParams) :
    Results s (chartInsertAnswer chart pos e s).state :=
  results_editCommand fun l position _ short => by
    have within : pos.toNat ≤ l.length := of_decide_eq_true position
    have short := short rfl
    rw [length_inserted _ within, Bool.toNat_true]
    omega

theorem results_chartReplace (s : State) (chart pos : Byte) (e : EntryParams) :
    Results s (chartReplaceAnswer chart pos e s).state :=
  results_editCommand fun _ _ _ _ => ⟨⟨by decide, by decide⟩, by simp⟩

theorem results_chartRemove (s : State) (chart pos : Byte) :
    Results s (chartRemoveAnswer chart pos s).state :=
  results_editCommand fun l position most _ => by
    have within : pos.toNat < l.length := of_decide_eq_true position
    rw [List.length_eraseIdx_of_lt within, Bool.toNat_false]
    omega

theorem results_chartClear (s : State) (chart : Byte) : Results s (chartClearAnswer chart s).state :=
  results_editCommand fun l _ most _ => by
    simp only [List.length_nil, Bool.toNat_false]
    omega

/-! ### The other commands -/

theorem results_stationSet (p : StationSetParams) (s : State) : Results s (stationSetAnswer p s).state := by
  unfold stationSetAnswer
  split
  · exact results_refuse s _
  split
  · exact results_refuse s _
  split
  · exact results_refuse s _
  split
  · exact results_refuse s _
  · next fits => exact Effect.results (.settings _ p _ _ (Nat.le_of_not_lt fits))

theorem results_stationRead (station clear : Byte) (s : State) :
    Results s (stationReadAnswer station clear s).state := by
  unfold stationReadAnswer
  split
  · exact results_refuse s _
  · dsimp only
    split
    · exact ⟨s, .nothing, sameInside_nextDraw s⟩
    · exact ⟨_, .countersCleared _, sameInside_nextDraw _⟩

theorem results_templateSet (template count : Byte) (l0 l1 l2 : LayerParams) (s : State) :
    Results s (templateSetAnswer template count l0 l1 l2 s).state := by
  unfold templateSetAnswer
  split
  · exact results_refuse s _
  dsimp only
  split
  · exact results_refuse s _
  split
  · exact results_refuse s _
  split
  · exact results_refuse s _
  · exact Effect.results (.templates _)

theorem results_waveDefine (wave : Byte) (start : Half) (k : Byte) (s : State) :
    Results s (waveDefineAnswer wave start k s).state := by
  unfold waveDefineAnswer
  split
  · exact results_refuse s _
  split
  · exact results_refuse s _
  split
  · exact results_refuse s _
  split
  · exact results_refuse s _
  · exact Effect.results (.waves _)

theorem results_waveWrite (s : State) (start : Half) (count : Byte) (samples : List Half)
    (whole : (Instr.waveWrite start count samples).wellFormed = true) :
    Results s (waveWriteAnswer start count samples s).state := by
  unfold waveWriteAnswer
  split
  · exact results_refuse s _
  · next passes =>
    refine Effect.results (.written _ _ ?_)
    have length : samples.length = Instr.samplesFor count := by simpa [Instr.wellFormed] using whole
    simp only [runRefused, decide_eq_true_eq, not_or, Nat.not_lt] at passes
    simp only [length, Instr.samplesFor]
    split <;> omega

theorem sameInside_abortPort (s : State) : SameInside s (abortPort s) := by
  unfold abortPort
  split <;> exact ⟨rfl, rfl, rfl, rfl, rfl, rfl, rfl, rfl, rfl, rfl, rfl⟩

theorem sameInside_port (s : State) (p : Port) : SameInside s { s with port := p } :=
  ⟨rfl, rfl, rfl, rfl, rfl, rfl, rfl, rfl, rfl, rfl, rfl⟩

/-! ### The rows -/

/-- Every row has one of the effects. -/
theorem results_exec {c : Instr} {s t : State} (h : exec c s = .next t) : Results s t := by
  have ends : ∀ {u : State}, (.next u : Host.Outcome State Fault Refusal) = .next t → Results s u → Results s t :=
    fun e hu => Host.Outcome.next.inj e ▸ hu
  have kept : (.next s : Host.Outcome State Fault Refusal) = .next t → Results s t :=
    fun e => ends e Effect.nothing.results
  cases c with
  | powerOn => exact ends h ⟨_, .poweredOn, rfl, rfl, rfl, rfl, rfl, rfl, rfl, rfl, rfl, rfl, rfl⟩
  | powerOnClearEnd =>
    dsimp only [exec, execPowerOnClearEnd] at h
    split at h
    · exact ends h ⟨_, .cleared, rfl, rfl, rfl, rfl, rfl, rfl, rfl, rfl, rfl, rfl, rfl⟩
    · exact kept h
  | pinReset => exact ends h (Effect.results .pinReset)
  | transactionBegin =>
    dsimp only [exec, execTransactionBegin] at h
    split at h
    · exact kept h
    · split at h <;> exact ends h (sameInside_port s _).results
  | transactionEnd =>
    dsimp only [exec, execTransactionEnd] at h
    split at h
    · exact ends h ((sameInside_abortPort s).trans (sameInside_port _ _)).results
    · exact kept h
  | unknownCommandByte b =>
    dsimp only [exec, execUnknownCommandByte] at h
    split at h
    · exact ends h (sameInside_port s _).results
    · exact kept h
  | statusRead => exact results_of_accept h Effect.nothing.results
  | stationRead station clear => exact results_of_accept h (results_stationRead station clear s)
  | stationSet p => exact results_of_accept h (results_stationSet p s)
  | keysenseSet station senses =>
    refine results_of_accept h ?_
    unfold keysenseSetAnswer
    split
    · exact results_refuse s _
    · exact Effect.results (.senses _ _)
  | stationRestart station =>
    refine results_of_accept h ?_
    unfold stationRestartAnswer
    split
    · exact results_refuse s _
    · exact Effect.results (.restarted _)
  | panic => exact results_of_accept h (Effect.results .panicked)
  | chartRead chart pos =>
    refine results_of_accept h ?_
    unfold chartReadAnswer
    split
    · exact results_refuse s _
    split
    · exact results_refuse s _
    split
    · exact results_refuse s _
    · exact Effect.nothing.results
  | chartAppend chart e => exact results_of_accept h (results_chartAppend s chart e)
  | chartInsert chart pos e => exact results_of_accept h (results_chartInsert s chart pos e)
  | chartReplace chart pos e => exact results_of_accept h (results_chartReplace s chart pos e)
  | chartRemove chart pos => exact results_of_accept h (results_chartRemove s chart pos)
  | chartClear chart => exact results_of_accept h (results_chartClear s chart)
  | chartInfo => exact results_of_accept h Effect.nothing.results
  | editCompletion order =>
    dsimp only [exec, execEditCompletion] at h
    split at h
    · next edit => exact ends h (Effect.results (.editCompleted order edit))
    · exact kept h
  | templateSet template count l0 l1 l2 =>
    exact results_of_accept h (results_templateSet template count l0 l1 l2 s)
  | templateRead template =>
    refine results_of_accept h ?_
    unfold templateReadAnswer
    split
    · exact results_refuse s _
    · exact Effect.nothing.results
  | templateClear template =>
    refine results_of_accept h ?_
    unfold templateClearAnswer
    split
    · exact results_refuse s _
    · exact Effect.results (.templates _)
  | waveDefine wave start k => exact results_of_accept h (results_waveDefine wave start k s)
  | waveWrite start count samples =>
    dsimp only [exec, execWaveWrite] at h
    split at h
    · next whole => exact results_of_accept h (results_waveWrite s start count samples whole)
    · exact kept h
  | waveRead start count =>
    refine results_of_accept h ?_
    unfold waveReadAnswer
    split
    · exact results_refuse s _
    · exact Effect.nothing.results
  | waveDelete wave =>
    refine results_of_accept h ?_
    unfold waveDeleteAnswer
    split
    · exact results_refuse s _
    split
    · exact results_refuse s _
    · exact Effect.results (.waves _)
  | voiceRead voice =>
    refine results_of_accept h ?_
    unfold voiceReadAnswer
    split
    · exact results_refuse s _
    · exact (sameInside_nextDraw s).results
  | faultRead => exact results_of_accept h (sameInside_nextDraw s).results
  | faultClear count =>
    refine results_of_accept h ?_
    unfold faultClearAnswer
    split
    · exact ⟨s, .nothing, rfl, rfl, rfl, rfl, rfl, rfl, rfl, rfl, rfl, rfl, rfl⟩
    · exact results_refuse s _
  | voiceRetire voice =>
    refine results_of_accept h ?_
    unfold voiceRetireAnswer
    split
    · exact results_refuse s _
    split
    · next held => exact Effect.results (.retired _ held)
    · exact results_refuse s _
  | faultPolicy enable mask =>
    exact results_of_accept h ⟨s, .nothing, rfl, rfl, rfl, rfl, rfl, rfl, rfl, rfl, rfl, rfl, rfl⟩
  | character i start data mark stop =>
    dsimp only [exec, execCharacter] at h
    split at h
    · exact kept h
    next listens =>
    split at h
    · exact ends h (Effect.results (.heard i _ _ (by simpa using listens)))
    · exact kept h
  | sync i intervals stop =>
    dsimp only [exec, execSync] at h
    split at h
    · exact kept h
    · next listens =>
      simp only [Bool.or_eq_true, not_or, Bool.not_eq_true] at listens
      exact ends h (Effect.results (.synced i _ listens.1))
  | syncTaken i =>
    dsimp only [exec, execSyncTaken] at h
    split at h
    · next handed => exact ends h (Effect.results (.syncTaken i handed))
    · exact kept h
  | hello i =>
    dsimp only [exec, execHello] at h
    split at h
    · split at h
      · split at h
        case h_1 | h_2 => exact kept h
        all_goals
          next state => exact ends h (Effect.results (.hello i (by simp [Joined, state]) _ _ _ _))
      · exact kept h
    · exact kept h
  | play i =>
    dsimp only [exec, execPlay] at h
    split at h
    · split at h
      · split at h
        case h_1 | h_2 => exact kept h
        all_goals
          next state => exact ends h (Effect.results (.played i (by simp [Joined, state]) _ _ _ _))
      · exact kept h
    · exact kept h
  | hush i =>
    dsimp only [exec, execHush] at h
    split at h
    · split at h
      · split at h
        case h_1 | h_2 => exact kept h
        all_goals
          next state => exact ends h (Effect.results (.hushed i (by simp [Joined, state])))
      · exact kept h
    · exact kept h
  | replyEnd i =>
    dsimp only [exec, execReplyEnd] at h
    split at h
    · exact ends h (Effect.results (.replyEnded i))
    · exact kept h
  | settleExpiry i =>
    dsimp only [exec, execSettleExpiry] at h
    split at h
    · next due => exact ends h (Effect.results (.settled i due.1))
    · exact kept h
  | silenceTimeout i =>
    dsimp only [exec, execSilenceTimeout] at h
    split at h
    · exact ends h (Effect.results (.silent i))
    · exact kept h
  | samplePeriod voices stations => exact ends h (Effect.results (.sampled voices stations))
  | glideStep v =>
    dsimp only [exec, execGlideStep] at h
    split at h
    · next due => exact ends h (Effect.results (.glided v due.1))
    · exact kept h
  | releaseCompletion v =>
    dsimp only [exec, execReleaseCompletion] at h
    split at h
    · next due => exact ends h (Effect.results (.released v due.1))
    · exact kept h
  | orphanDrainCompletion v =>
    dsimp only [exec, execOrphanDrainCompletion] at h
    split at h
    · next due => exact ends h (Effect.results (.drained v due.1 due.2.2))
    · exact kept h
  | drainCompletion v =>
    dsimp only [exec, execDrainCompletion] at h
    split at h
    · next c bound =>
      split at h
      · next due => exact ends h (Effect.results (.handedOver v c due.1 bound))
      · exact kept h
    · exact kept h
  | pinResetRelease =>
    dsimp only [exec, execPinResetRelease] at h
    split at h
    · exact ends h ⟨s, .nothing, rfl, rfl, rfl, rfl, rfl, rfl, rfl, rfl, rfl, rfl, rfl⟩
    · exact kept h
  | parameterByte b =>
    dsimp only [exec, execParameterByte] at h
    split at h
    · exact ends h (sameInside_port s _).results
    · exact kept h
  | notReady b =>
    dsimp only [exec, execNotReady] at h
    split at h
    · exact ends h (sameInside_port s _).results
    · exact kept h
  | responseEnd =>
    dsimp only [exec, execResponseEnd] at h
    split at h
    · exact ends h (sameInside_port s _).results
    all_goals exact kept h

/-- What passing bit times and every effect keep, and what is of the part's inside alone, every step keeps. -/
theorem step_keeps {P : State → Prop} (inside : ∀ {s t}, SameInside s t → P s → P t)
    (idle : ∀ s, P s → P (passBitTime s)) (effect : ∀ {s t}, Effect s t → P s → P t)
    {s t : State} (hs : P s) (h : step s = .next t) : P t := by
  unfold step at h
  split at h
  · exact Host.Outcome.next.inj h ▸ idle s hs
  · obtain ⟨u, he, hu⟩ := results_exec h
    exact inside hu (effect he (inside (s := s) ⟨rfl, rfl, rfl, rfl, rfl, rfl, rfl, rfl, rfl, rfl, rfl⟩ hs))

end Sys2Proof.Machine
end

section
/-! What every step keeps of the stores: the wave memory in canonical form (O54) and the chart store's counts (O55). -/

namespace Sys2Proof.Machine

/-! ### Lines and audio -/

theorem engineFrame_endCharacter (s : State) (i : StationId) (bits : List Bool) :
    EngineFrame s (endCharacter s i bits) i := by
  unfold endCharacter
  split
  · exact engineFrame_takeCharacter s i _ _
  · exact engineFrame_framingError s i _ _

theorem engineFrame_hearLevels (i : StationId) (T : Nat) (c : CharacterAssembly) (s : State)
    (levels : List Bool) : EngineFrame s (hearLevels i T c s levels) i := by
  induction levels generalizing c s with
  | nil => exact engineFrame_updStation s i _
  | cons level levels ih =>
    rw [hearLevels]
    split
    · exact ih _ _
    · exact ((engineFrame_updStation s i _).trans (engineFrame_endCharacter _ i _)).trans (ih _ _)

/-- The step of one voice keeps the allocator's frame. -/
theorem allocatorFrame_stepVoice (r : State × Sums) (v : VoiceId) : AllocatorFrame r.1 (stepVoice r v).1 := by
  have sound : ∀ r : State × Sums, AllocatorFrame r.1 (soundVoice v r).1 :=
    fun r => allocatorFrame_updVoice r.1 v _
  have read : ∀ r : State × Sums, AllocatorFrame r.1 (readAndSound v r).1 := by
    intro r
    unfold readAndSound
    split
    · exact sound r
    · next a _ =>
      have reported : AllocatorFrame r.1 (reportParity r.1 v a) := allocatorFrame_report r.1 _ _ _ _ _
      dsimp only
      split
      · exact reported.trans (allocatorFrame_faultVoice _ v)
      · exact (reported.trans (allocatorFrame_orphanVoice _ v)).trans (sound (orphanVoice _ v, r.2))
  unfold stepVoice
  split
  case h_4 | h_5 => exact .refl _
  all_goals exact (allocatorFrame_updVoice r.1 v _).trans (read (pitchStep r.1 v, r.2))

theorem allocatorFrame_renderVoices (order : List VoiceId) (s : State) :
    AllocatorFrame s (renderVoices order s).1 := by
  have fold : ∀ (l : List VoiceId) (r : State × Sums), AllocatorFrame r.1 (l.foldl stepVoice r).1 := by
    intro l
    induction l with
    | nil => exact fun r => .refl _
    | cons v l ih => exact fun r => (allocatorFrame_stepVoice r v).trans (ih _)
  exact fold _ _

/-- Clip states and clip reports leave the stores. -/
theorem sameStores_clips (sums : Sums) (l : List StationId) (s : State) :
    SameStores s (l.foldl (clipStation sums) s) := by
  induction l generalizing s with
  | nil => exact ⟨rfl, rfl, rfl, rfl⟩
  | cons i l ih =>
    have one : SameStores s (clipStation sums s i) := by
      unfold clipStation
      dsimp only
      split <;> exact ⟨rfl, rfl, rfl, rfl⟩
    obtain ⟨hc, ht, hw, hm⟩ := ih (clipStation sums s i)
    obtain ⟨hc', ht', hw', hm'⟩ := one
    exact ⟨hc.trans hc', ht.trans ht', hw.trans hw', hm.trans hm'⟩

theorem sameStores_samplePeriod (voices : List VoiceId) (stations : List StationId) (s : State) :
    SameStores s (samplePeriod voices stations s) := by
  obtain ⟨hc, ht, hw, hm⟩ := (allocatorFrame_renderVoices voices (tickClocks s)).1
  obtain ⟨hc', ht', hw', hm'⟩ := sameStores_clips (renderVoices voices (tickClocks s)).2
    (inOrder stations allStations)
    (audioStep (renderVoices voices (tickClocks s)).1 (renderVoices voices (tickClocks s)).2)
  exact ⟨hc'.trans hc, ht'.trans ht, hw'.trans hw, hm'.trans hm⟩

theorem sameStores_resumeStalls (l : List StationId) (s : State) : SameStores s (l.foldl resumeStall s) := by
  induction l generalizing s with
  | nil => exact ⟨rfl, rfl, rfl, rfl⟩
  | cons i l ih =>
    obtain ⟨hc, ht, hw, hm⟩ := ih (resumeStall s i)
    obtain ⟨hc', ht', hw', hm'⟩ := (engineFrame_resumeStall s i).1
    exact ⟨hc.trans hc', ht.trans ht', hw.trans hw', hm.trans hm'⟩

/-! ### The wave memory -/

/-- A row leaves the wave memory as it was, empties it, or writes one run within it. -/
inductive MemoryAfter (m : Memory) : Memory → Prop
  | same : MemoryAfter m m
  | cleared : MemoryAfter m []
  | written (a : Nat) (xs : List Half) (within : a + xs.length ≤ 65536) : MemoryAfter m (m.writeRun a xs)

/-- A row leaves the chart store as it was or at reset, abandons or completes its edit, or puts one in flight. -/
inductive ChartsAfter (x : ChartStore) : ChartStore → Prop
  | same : ChartsAfter x x
  | reset : ChartsAfter x ChartStore.reset
  | abandoned : ChartsAfter x x.abandon
  | completed (h : x.edit.isSome = true) : ChartsAfter x x.complete
  | edited {y : ChartStore} (h : Edited x y) : ChartsAfter x y

theorem SameStores.after {s t : State} (h : SameStores s t) :
    ChartsAfter s.charts t.charts ∧ MemoryAfter s.memory t.memory := by
  obtain ⟨hc, -, -, hm⟩ := h
  rw [hc, hm]
  exact ⟨.same, .same⟩

theorem sameStores_applySettings (s : State) (i : StationId) (new : Settings) :
    SameStores s (applySettings s i new) := by
  obtain ⟨hc, ht, hw, hm⟩ := (engineFrame_applySettings s i new).1
  refine ⟨hc.trans ?_, ht.trans ?_, hw.trans ?_, hm.trans ?_⟩ <;> split <;> rfl

/-- What the effects do to the chart store and the wave memory. -/
theorem Effect.stores {s t : State} (h : Effect s t) :
    ChartsAfter s.charts t.charts ∧ MemoryAfter s.memory t.memory := by
  cases h with
  | poweredOn => exact ⟨.reset, .cleared⟩
  | cleared => exact ⟨.same, .cleared⟩
  | pinReset => exact ⟨.abandoned, .same⟩
  | edited h => exact ⟨.edited h, .same⟩
  | editCompleted order h =>
    obtain ⟨hc, -, -, hm⟩ := sameStores_resumeStalls (inOrder order allStations)
      { s with charts := s.charts.complete }
    rw [hc, hm]
    exact ⟨.completed h, .same⟩
  | written a xs within => exact ⟨.same, .written a xs within⟩
  | nothing | senses | countersCleared | panicked | templates | waves | replyEnded | glided =>
    exact ⟨.same, .same⟩
  | settings i p template chart => exact (sameStores_applySettings s i _).after
  | restarted i => exact (engineFrame_restartStation s i).1.after
  | heard i T levels => exact (engineFrame_hearLevels i T _ s levels).1.after
  | synced i T =>
    exact (((engineFrame_dropIncomplete s i).trans (engineFrame_updStation _ i _)).trans
      (engineFrame_handSync _ i)).1.after
  | syncTaken i => exact (engineFrame_takeSync s i).1.after
  | hello i => exact ((engineFrame_updStation s i _).trans (engineFrame_takeHello _ i _ _ _ _)).1.after
  | played i => exact ((engineFrame_updStation s i _).trans (engineFrame_takePlay _ i _ _ _ _)).1.after
  | hushed i => exact ((engineFrame_updStation s i _).trans (engineFrame_takeHush _ i)).1.after
  | settled i => exact ((engineFrame_updStation s i _).trans (engineFrame_resolveOrStall _ i _)).1.after
  | silent i => exact (engineFrame_takeSilence s i).1.after
  | sampled voices stations => exact (sameStores_samplePeriod voices stations s).after
  | retired v | released v | drained v => exact (allocatorFrame_freeVoice s v).1.after
  | handedOver v c => exact (allocatorFrame_handOver s c).1.after

theorem sameStores_passBitTime (s : State) : SameStores s (passBitTime s) := by
  unfold passBitTime
  split <;> exact ⟨rfl, rfl, rfl, rfl⟩

theorem MemoryAfter.wf {m m' : Memory} (h : MemoryAfter m m') (hm : m.wf = true) : m'.wf = true := by
  cases h with
  | same => exact hm
  | cleared => exact Memory.wf_nil
  | written a xs within => exact Memory.wf_writeRun xs hm within

/-- Settles O54: a row leaves the memory as it was, empties it, or writes one run within it. -/
theorem stepsKeepTheMemoryCanonical : Obligations.StepsKeepTheMemoryCanonical := fun _ _ hs h =>
  step_keeps (P := MemoryOk) (fun hu hs => by rwa [MemoryOk, hu.memory])
    (fun s hs => by rwa [MemoryOk, (sameStores_passBitTime s).2.2.2]) (fun he hs => he.stores.2.wf hs) hs h

/-! ### The chart store's counts -/

theorem length_set_same (x : Vector Nat 8) (c : ChartId) (n : Nat) : (x.set c n)[c] = n := by simp

theorem length_set_other (x : Vector Nat 8) {c j : ChartId} (n : Nat) (h : j ≠ c) : (x.set c n)[j] = x[j] := by
  have : c.val ≠ j.val := fun e => h (Fin.ext e.symm)
  simp [this]

theorem length_set (x : Vector Nat 8) (c j : ChartId) (n : Nat) : (x.set c n)[j] = if j = c then n else x[j] := by
  by_cases h : j = c
  · rw [if_pos h, h, length_set_same]
  · rw [if_neg h, length_set_other x n h]

/-- A sum over the charts of which one summand has changed. -/
theorem overCharts_set (x : Vector Nat 8) (c : ChartId) (n : Nat) :
    overCharts (fun j => (x.set c n)[j]) + x[c] = overCharts (fun j => x[j]) + n := by
  unfold overCharts
  simp only [length_set]
  rcases chart_cases c with rfl | rfl | rfl | rfl | rfl | rfl | rfl | rfl <;>
    simp only [Fin.reduceEq, if_true, if_false] <;> omega

theorem chartsOk_reset : ChartStore.reset.ok := by
  refine ⟨by decide, by decide, by decide, ?_⟩
  show ∀ c : ChartId, ChartStore.reset.lengths[c] = ChartStore.reset.lists[c].length
  decide

/-- An edit put in flight keeps the counts. -/
theorem Edited.ok {x y : ChartStore} (h : Edited x y) (hx : x.ok) : y.ok := by
  obtain ⟨c, cmd, work, l, rfl, bounds⟩ := h.inFlight
  obtain ⟨hwork, hl, room⟩ := bounds hx
  have lengthOf := ChartStore.length_eq_of_idle hx h.idle
  obtain ⟨total, lists, most, -⟩ := hx
  have sum := overCharts_set x.lengths c l.length
  refine ⟨?_, lists, fun j => ?_, hwork, length_set_same _ _ _, fun j hj => ?_⟩
  · simp only [ChartStore.putInFlight]
    omega
  · refine ⟨?_, (most j).2⟩
    by_cases hj : j = c
    · subst hj
      exact Nat.le_trans (Nat.le_of_eq (length_set_same x.lengths j l.length)) hl
    · exact Nat.le_trans (Nat.le_of_eq (length_set_other x.lengths l.length hj)) (most j).1
  · exact (length_set_other x.lengths l.length hj).trans (lengthOf j)

/-- Abandoning the edit in flight keeps the counts. -/
theorem ok_abandon {x : ChartStore} (hx : x.ok) : x.abandon.ok := by
  unfold ChartStore.abandon
  cases he : x.edit with
  | none => exact hx
  | some e =>
    obtain ⟨total, lists, most, edit⟩ := hx
    rw [ChartStore.editOk, he] at edit
    obtain ⟨-, -, others⟩ := edit
    have sum := overCharts_set x.lengths e.chart x.lists[e.chart].length
    have lengthOf : ∀ j : ChartId,
        (x.lengths.set e.chart x.lists[e.chart].length)[j] = x.lists[j].length := fun j => by
      by_cases hj : j = e.chart
      · subst hj; exact length_set_same _ _ _
      · exact (length_set_other _ _ hj).trans (others j hj)
    have same : overCharts (fun j => (x.lengths.set e.chart x.lists[e.chart].length)[j])
        = overCharts fun j => x.lists[j].length := congrArg overCharts (funext lengthOf)
    refine ⟨?_, lists, fun j => ⟨Nat.le_trans (Nat.le_of_eq (lengthOf j)) (most j).2, (most j).2⟩, lengthOf⟩
    show x.freeCells + x.lengths[e.chart] - x.lists[e.chart].length
      + overCharts (fun j => (x.lengths.set e.chart x.lists[e.chart].length)[j]) = 512
    omega

/-- Completing the edit in flight keeps the counts. -/
theorem ok_complete {x : ChartStore} (hx : x.ok) : x.complete.ok := by
  unfold ChartStore.complete
  cases he : x.edit with
  | none => exact hx
  | some e =>
    obtain ⟨total, lists, most, edit⟩ := hx
    rw [ChartStore.editOk, he] at edit
    obtain ⟨-, atChart, others⟩ := edit
    have lengthOf : ∀ j : ChartId, x.lengths[j] = ((x.lists.set e.chart e.result)[j]).length := fun j => by
      by_cases hj : j = e.chart
      · subst hj; simpa using atChart
      · have : e.chart.val ≠ j.val := fun h => hj (Fin.ext h.symm)
        simpa [this] using others j hj
    have same : overCharts (fun j => ((x.lists.set e.chart e.result)[j]).length)
        = overCharts fun j => x.lengths[j] := congrArg overCharts (funext fun j => (lengthOf j).symm)
    refine ⟨total, ?_, fun j => ⟨(most j).1, Nat.le_trans (Nat.le_of_eq (lengthOf j).symm) (most j).1⟩, lengthOf⟩
    show overCharts (fun j => ((x.lists.set e.chart e.result)[j]).length) ≤ 512
    omega

theorem ChartsAfter.ok {x y : ChartStore} (h : ChartsAfter x y) (hx : x.ok) : y.ok := by
  cases h with
  | same => exact hx
  | reset => exact chartsOk_reset
  | abandoned => exact ok_abandon hx
  | completed => exact ok_complete hx
  | edited h => exact h.ok hx

/-- Settles O55: an edit accepted, completed or abandoned moves as many cells as the length changes by. -/
theorem stepsKeepTheChartCounts : Obligations.StepsKeepTheChartCounts := fun _ _ hs h =>
  step_keeps (P := fun s => s.charts.ok) (fun hu hs => by rwa [hu.charts])
    (fun s hs => by rwa [(sameStores_passBitTime s).1]) (fun he hs => he.stores.1.ok hs) hs h

end Sys2Proof.Machine
end

section
/-! O59 refuted. A retune (R100) gives the voice of a VOICED slot its new target whatever that voice's state is, and
neither `BreathOk`, `StoresOk` nor `VoicesOk` says that the voice of a VOICED slot is in use: a FREE voice named by a
stale slot leaves its record of zeros. -/

namespace Sys2Proof.Machine

/-- A layer copy within its ranges, its condition always true. -/
def plainCopy : LayerCopy := ⟨⟨0, ⟨0, 8⟩⟩, none, ⟨0, 0, 255, 64, 0, .any, 1, 1⟩⟩

/-- A LIVE station whose settle timer has expired, sounding note 10 with a slot VOICED on voice V0. -/
def staleStation : Station :=
  { Station.reset with
    state := .live
    fingering := { Fingering.reset with
      settle := .expired
      note := some ⟨1, 10, false, none, [⟨0, plainCopy, .voiced 0⟩]⟩ } }

/-- A part with that station, its chart giving note 60 for every snapshot, and with every voice FREE. -/
def staleState : State :=
  { State.reset with
    pending := [.settleExpiry 0]
    stations := State.reset.stations.set 0 staleStation
    charts := { ChartStore.reset with lists := ChartStore.reset.lists.set 0 [⟨0, 0, ⟨60, none, 0, false⟩⟩] } }

theorem plainCopy_inRange : plainCopy.inRange :=
  ⟨by unfold Tone.inRange; decide, by unfold WaveRegion.inRange; decide, fun _ h => nomatch h⟩

theorem breathOk_staleState : BreathOk staleState := by
  intro i
  have limits : ∀ i : StationId, (staleState.station i).settings = Settings.reset
      ∧ (staleState.station i).breath = Breath.reset := by decide
  rw [Station.breathOk, (limits i).1, (limits i).2]
  decide

theorem storesOk_staleState : StoresOk staleState := by
  have noWave : ∀ w : WaveId, staleState.waves[w] = none := by decide
  have noLayer : ∀ n : TemplateId, staleState.templates[n] = [] := by decide
  refine ⟨fun w r h => ?_, fun n => ?_⟩
  · rw [noWave w] at h; cases h
  · rw [noLayer n]; exact ⟨Nat.zero_le _, fun l h => nomatch h⟩

theorem voicesOk_staleState : VoicesOk staleState := by
  have free : ∀ v : VoiceId, staleState.voice v = Voice.free := by decide
  have slots : ∀ (i : StationId), ∀ n ∈ staleState.note i, ∀ x ∈ n.slots, x.copy = plainCopy := by decide
  refine ⟨fun v => ?_, fun i n x hn hx => ?_⟩
  · rw [free v]; exact inRange_free
  · rw [slots i n hn x hx]; exact plainCopy_inRange

/-- The part after the settle expiry has been taken. -/
def staleAfter : State :=
  resolveOrStall ({ staleState with pending := [] }.updFingering 0 fun g => { g with settle := .stopped }) 0 .expiry

theorem step_staleState : step staleState = .next staleAfter := rfl

/-- V0 is FREE still, but its base pitch is that of note 60. -/
theorem staleAfter_voice : (staleAfter.voice 0).state = .free ∧ (staleAfter.voice 0).base = 3840 := by decide

/-- Refutes O59: in its last clause a FREE voice that a slot names as VOICED is retuned and so holds a record. -/
theorem not_stepsKeepTheRanges : ¬ Obligations.StepsKeepTheRanges := by
  rintro ⟨-, -, -, -, -, -, voices⟩
  obtain ⟨inRange, -⟩ := voices staleState staleAfter breathOk_staleState storesOk_staleState
    voicesOk_staleState step_staleState
  obtain ⟨-, -, -, -, noRecord, -⟩ := inRange 0
  obtain ⟨free, base⟩ := staleAfter_voice
  rw [noRecord free] at base
  exact absurd base (by decide)

end Sys2Proof.Machine
end

section
/-! What every step keeps of the stations' lifecycle (chapter 7): O58. -/

namespace Sys2Proof.Machine

/-! ### One station -/

/-- A station's lifecycle is in order: DISABLED with enable 0, at rest outside LIVE, its note gated, its silence timer
running where it must. -/
structure Station.lifeOk (x : Station) : Prop where
  enable : x.enableOk
  rest : x.restOk
  gate : x.gateOk
  silence : x.silenceOk

theorem livesOk_iff (s : State) :
    (∀ i, (s.station i).lifeOk) ↔ LifecycleOk s ∧ NotesGated s ∧ SilenceOk s :=
  ⟨fun h => ⟨fun i => ⟨(h i).enable, (h i).rest⟩, fun i => (h i).gate, fun i => (h i).silence⟩,
    fun ⟨life, gated, silent⟩ i => ⟨(life i).1, (life i).2, gated i, silent i⟩⟩

/-- A note or an onset waiting for one. -/
def Fingering.noteOrOnset (g : Fingering) : Prop := g.note.isSome = true ∨ g.onsetPending = true

/-- Station y has x's state, enable setting, SYNC handed over, silence timer and GATE. -/
structure Steady (x y : Station) : Prop where
  state : y.state = x.state
  enable : y.settings.enable = x.settings.enable
  handed : y.syncHanded = x.syncHanded
  silence : y.link.silence = x.link.silence
  gate : y.breath.ind.gate = x.breath.ind.gate

/-- Station y goes on from x: it is steady, and begins nothing that x had no note or onset for. -/
structure GoesOn (x y : Station) : Prop extends Steady x y where
  note : y.fingering.noteOrOnset → x.fingering.noteOrOnset

theorem Steady.trans {x y z : Station} (h : Steady x y) (k : Steady y z) : Steady x z :=
  ⟨k.state.trans h.state, k.enable.trans h.enable, k.handed.trans h.handed, k.silence.trans h.silence,
    k.gate.trans h.gate⟩

theorem GoesOn.rfl {x : Station} : GoesOn x x := ⟨⟨.refl _, .refl _, .refl _, .refl _, .refl _⟩, id⟩

theorem GoesOn.trans {x y z : Station} (h : GoesOn x y) (k : GoesOn y z) : GoesOn x z :=
  ⟨h.toSteady.trans k.toSteady, fun hz => h.note (k.note hz)⟩

theorem SameStation.goesOn {s t : State} {j : StationId} (h : SameStation s t j) :
    GoesOn (s.station j) (t.station j) := by
  unfold SameStation at h
  have state : (t.station j).unslotted.state = (s.station j).unslotted.state := congrArg Station.state h
  have handed : (t.station j).unslotted.syncHanded = (s.station j).unslotted.syncHanded :=
    congrArg Station.syncHanded h
  refine ⟨⟨state, congrArg (·.settings.enable) h, handed, congrArg (·.link.silence) h,
    congrArg (·.breath.ind.gate) h⟩, fun hn => ?_⟩
  have note : (t.station j).fingering.note.isSome = (s.station j).fingering.note.isSome := by
    simpa [Station.unslotted] using congrArg (·.fingering.note.isSome) h
  have onset : (t.station j).fingering.onsetPending = (s.station j).fingering.onsetPending :=
    congrArg (·.fingering.onsetPending) h
  rwa [Fingering.noteOrOnset, note, onset] at hn

/-- A LIVE station that goes on keeps its lifecycle in order. -/
theorem Station.lifeOk.goesOn {x y : Station} (hx : x.lifeOk) (live : x.state = .live) (h : GoesOn x y) :
    y.lifeOk where
  enable := by
    have := hx.enable
    rwa [Station.enableOk, ← h.enable, ← h.state, ← h.handed] at this
  rest := fun notLive => absurd (h.state.trans live) notLive
  gate := fun hn => by
    rw [h.state, h.gate]
    exact hx.gate (h.note hn)
  silence := by
    have := hx.silence
    rwa [Station.silenceOk, ← h.state, ← h.silence] at this

/-- What differs in slots' states only has its lifecycle in order alike. -/
theorem SameStation.lifeOk {s t : State} {j : StationId} (h : SameStation s t j) (hs : (s.station j).lifeOk) :
    (t.station j).lifeOk := by
  by_cases live : (s.station j).state = .live
  · exact hs.goesOn live h.goesOn
  · have atRest := (hs.rest live).2.1
    rw [station_eq_of_sameStation h (by rw [atRest]; rfl)]
    exact hs

/-- An engine's event keeps all lifecycles in order where it keeps its own station's. -/
theorem EngineFrame.lifeOk {s t : State} {i : StationId} (h : EngineFrame s t i)
    (hs : ∀ j, (s.station j).lifeOk) (hi : (t.station i).lifeOk) (j : StationId) : (t.station j).lifeOk := by
  obtain ⟨-, -, others, -, -⟩ := h
  by_cases hj : j = i
  · exact hj ▸ hi
  · exact (others j hj).lifeOk (hs j)

theorem AllocatorFrame.lifeOk {s t : State} (h : AllocatorFrame s t) (hs : ∀ j, (s.station j).lifeOk)
    (j : StationId) : (t.station j).lifeOk := (h.2.2.1 j).lifeOk (hs j)

theorem lifeOk_reset : Station.reset.lifeOk where
  enable := ⟨by decide, by decide⟩
  rest := fun _ => ⟨rfl, rfl, rfl⟩
  gate := fun h => by rcases h with h | h <;> cases h
  silence := ⟨by decide, fun n h => nomatch h⟩

/-- A station at rest has its lifecycle in order where state, enable setting, SYNC
handed over and silence timer go together. -/
theorem lifeOk_atRest {x : Station} (breath : x.breath = x.breath.atRest)
    (fingering : x.fingering = x.fingering.atRest) (stall : x.stall = none) (enable : x.enableOk)
    (silence : x.silenceOk) : x.lifeOk where
  enable := enable
  rest := fun _ => ⟨breath, fingering, stall⟩
  gate := fun h => by
    rw [fingering] at h
    rcases h with h | h <;> cases h
  silence := silence

/-! ### A LIVE station's work -/

section Live
variable (s : State) (i : StationId)

theorem goesOn_noteOff : GoesOn (s.station i) ((noteOff s i).station i) := by
  rw [noteOff_station]
  refine ⟨⟨rfl, rfl, rfl, rfl, rfl⟩, fun h => ?_⟩
  rcases h with h | h
  · cases h
  · exact .inr h

theorem goesOn_evalConditions : GoesOn (s.station i) ((evalConditions s i).station i) :=
  ((allocatorFrame_evalConditions s i).2.2.1 i).goesOn

theorem steady_noteOn (number : Nat) (raised : Bool) :
    Steady (s.station i) ((noteOn s i number raised).station i) := by
  refine Steady.trans ?_ (goesOn_evalConditions _ i).toSteady
  rw [updFingering_eq, station_updStation_self]
  exact ⟨rfl, rfl, rfl, rfl, rfl⟩

/-- A note starts only in the place of another or for a pending onset. -/
theorem goesOn_actOnNote (number : Nat) (raised : Bool) :
    GoesOn (s.station i) ((actOnNote s i number raised).station i) := by
  unfold actOnNote State.note
  split
  · split
    · next onset => exact ⟨steady_noteOn s i number raised, fun _ => .inr onset⟩
    · exact .rfl
  · next n sounds =>
    have note : (s.station i).fingering.noteOrOnset := .inl (by rw [sounds]; rfl)
    split
    · rw [updNote_eq, station_updStation_self]
      exact ⟨⟨rfl, rfl, rfl, rfl, rfl⟩, fun _ => note⟩
    · split
      · have renamed : Steady (s.station i)
            ((s.updNote i fun n => { n with number := number, raised := raised }).station i) := by
          rw [updNote_eq, station_updStation_self]
          exact ⟨rfl, rfl, rfl, rfl, rfl⟩
        have retuned := ((allocatorFrame_retune (s.updNote i fun n =>
          { n with number := number, raised := raised }) i).2.2.1 i).goesOn.toSteady
        exact ⟨(renamed.trans retuned).trans (goesOn_evalConditions _ i).toSteady, fun _ => note⟩
      · exact ⟨(goesOn_noteOff s i).toSteady.trans (steady_noteOn _ i number raised), fun _ => note⟩

theorem goesOn_resolution : GoesOn (s.station i) ((resolution s i).station i) := by
  unfold resolution
  split
  · refine GoesOn.trans ?_ (goesOn_actOnNote _ i _ _)
    simp only [setRaised, updBreath_eq, updFingering_eq, station_updStation_self]
    exact ⟨⟨rfl, rfl, rfl, rfl, rfl⟩, id⟩
  · simp only [resolveMiss, setRaised, updBreath_eq, updFingering_eq, station_updStation_self, station_report]
    exact ⟨⟨rfl, rfl, rfl, rfl, rfl⟩, id⟩

theorem goesOn_finishWork (w : StallWork) : GoesOn (s.station i) ((finishWork s i w).station i) := by
  refine (goesOn_evalConditions s i).trans ?_
  cases w with
  | frame seq =>
    simp only [finishWork, replyDue, station_updStation_self]
    refine ⟨⟨rfl, rfl, rfl, ?_, rfl⟩, id⟩
    unfold Link.queueReply
    split <;> rfl
  | expiry => exact .rfl

theorem goesOn_resolveOrStall (w : StallWork) : GoesOn (s.station i) ((resolveOrStall s i w).station i) := by
  unfold resolveOrStall
  split
  · rw [station_updStation_self]
    exact ⟨⟨rfl, rfl, rfl, rfl, rfl⟩, id⟩
  · exact (goesOn_resolution s i).trans (goesOn_finishWork _ i w)

theorem goesOn_resumeStall : GoesOn (s.station i) ((resumeStall s i).station i) := by
  unfold resumeStall
  split
  · refine GoesOn.trans ?_ ((goesOn_resolution _ i).trans (goesOn_finishWork _ i _))
    rw [station_updStation_self]
    exact ⟨⟨rfl, rfl, rfl, rfl, rfl⟩, id⟩
  · exact .rfl

variable {s i}

/-- A stalled lookup is made in LIVE only, so that it keeps the lifecycle in order. -/
theorem lifeOk_resumeStall (hs : ∀ j, (s.station j).lifeOk) (j : StationId) :
    ((resumeStall s i).station j).lifeOk := by
  refine (engineFrame_resumeStall s i).lifeOk hs ?_ j
  by_cases live : (s.station i).state = .live
  · exact (hs i).goesOn live (goesOn_resumeStall s i)
  · have noStall : (s.station i).stall = none := ((hs i).rest live).2.2
    unfold resumeStall
    rw [noStall]
    exact hs i

theorem lifeOk_resumeStalls {l : List StationId} (hs : ∀ j, (s.station j).lifeOk) (j : StationId) :
    ((l.foldl resumeStall s).station j).lifeOk := by
  induction l generalizing s with
  | nil => exact hs j
  | cons i l ih => exact ih (lifeOk_resumeStall hs)

/-- The station after steps 1 to 3 of a frame's work: at a fall of GATE the note is gone. -/
theorem station_beginFrame (c : FrameChanges) (keys : Word) :
    ∃ settle : Timer, (beginFrame s i c keys).station i =
      { s.station i with
        fingering :=
          { (s.station i).fingering with
            snapshot := maskKeys (s.station i).keyCount keys
            changed := (s.station i).fingering.changed ||| c.changed
            settle := settle
            note := if c.ended then none else (s.station i).fingering.note
            onsetPending := (if c.ended then false else (s.station i).fingering.onsetPending) || c.onset } } := by
  unfold beginFrame takeKeys
  cases c.ended with
  | true =>
    simp only [if_true, endNote, updFingering_eq, station_updStation_self, noteOff_station]
    exact ⟨_, rfl⟩
  | false =>
    simp only [Bool.false_eq_true, if_false, updFingering_eq, station_updStation_self]
    exact ⟨_, rfl⟩

/-- A frame performed in LIVE keeps the lifecycle in order: its onset and its note's end follow GATE. -/
theorem lifeOk_performFrame (hs : ∀ j, (s.station j).lifeOk) (live : (s.station i).state = .live)
    (keys : Word) (breath lip seq : Nat) (j : StationId) :
    ((performFrame s i keys breath lip seq).station j).lifeOk := by
  refine (engineFrame_performFrame s i keys breath lip seq).lifeOk hs ?_ j
  unfold performFrame fingerFrame
  dsimp only
  obtain ⟨c, hc⟩ : ∃ c, c = frameChanges (s.station i) ((computeBreath s i breath lip).station i) keys := ⟨_, rfl⟩
  rw [← hc]
  obtain ⟨settle, begun⟩ := station_beginFrame (s := computeBreath s i breath lip) (i := i) c keys
  have computed : (computeBreath s i breath lip).station i =
      { s.station i with
        breath := breathStep (s.station i).settings (s.station i).breath (rawReading breath) (rawReading lip) } := by
    simp only [computeBreath, station_updStation_self]
  rw [computed] at begun hc
  have start : ((beginFrame (computeBreath s i breath lip) i c keys).station i).lifeOk := by
    rw [begun]
    refine ⟨(hs i).enable, fun notLive => absurd live notLive, fun h => ⟨live, ?_⟩, (hs i).silence⟩
    have gated : (s.station i).fingering.noteOrOnset → (s.station i).breath.ind.gate = true :=
      fun h => ((hs i).gate h).2
    subst hc
    simp only [frameChanges, Fingering.noteOrOnset] at h gated ⊢
    cases before : (s.station i).breath.ind.gate <;>
      cases after : (breathStep (s.station i).settings (s.station i).breath (rawReading breath)
        (rawReading lip)).ind.gate <;> simp_all
  have liveStill : ((beginFrame (computeBreath s i breath lip) i c keys).station i).state = .live := by
    rw [begun]; exact live
  split
  · exact start.goesOn liveStill (goesOn_resolveOrStall _ i _)
  · exact start.goesOn liveStill (goesOn_finishWork _ i _)

end Live

/-! ### Changes of state -/

/-- The silence timer with 1152 periods goes with CALIBRATING and LIVE, the stopped one with the others. -/
theorem silenceOk_running {x : Station} (state : x.state = .calibrating ∨ x.state = .live)
    (h : x.link.silence = .running 1152) : x.silenceOk := by
  refine ⟨⟨fun hs => ?_, fun ⟨notCalibrating, notLive⟩ => ?_⟩, fun n hn => ?_⟩
  · rw [h] at hs; cases hs
  · rcases state with state | state
    · exact absurd state notCalibrating
    · exact absurd state notLive
  · rw [h] at hn; cases hn; exact ⟨by decide, by decide⟩

theorem silenceOk_stopped {x : Station} (state : x.state ≠ .calibrating ∧ x.state ≠ .live)
    (h : x.link.silence = .stopped) : x.silenceOk :=
  ⟨⟨fun _ => state, fun _ => h⟩, fun n hn => by rw [h] at hn; cases hn⟩

/-- A station whose enable setting is in order is DISABLED or has enable 1. -/
theorem enableOk_of_enabled {x : Station} (enabled : x.settings.enable = true) (state : x.state ≠ .disabled) :
    x.enableOk :=
  ⟨⟨fun h => (by rw [enabled] at h; cases h), fun h => absurd h state⟩, fun h => absurd h state⟩

theorem Station.lifeOk.enabled {x : Station} (h : x.lifeOk) (state : x.state ≠ .disabled) :
    x.settings.enable = true := by
  cases he : x.settings.enable with
  | true => rfl
  | false => exact absurd (h.enable.1.1 he) state

section Changes
variable {s : State} {i : StationId}

theorem station_becomeSynced (h : (s.station i).restOk) :
    (becomeSynced s i).station i =
      { s.station i with
        state := .synced
        stall := none
        breath := (s.station i).breath.atRest
        fingering := (s.station i).fingering.atRest
        calib := Calibration.fresh
        link := { (s.station i).link with silence := .stopped } } := by
  simp only [becomeSynced, stopSilence, updLink_eq, station_updStation_self, enterState_station s i _ h]

/-- A station that is not DISABLED becomes SYNCED with its lifecycle in order. -/
theorem lifeOk_becomeSynced (hs : (s.station i).lifeOk) (state : (s.station i).state ≠ .disabled) :
    ((becomeSynced s i).station i).lifeOk := by
  rw [station_becomeSynced hs.rest]
  exact lifeOk_atRest rfl rfl rfl (enableOk_of_enabled (hs.enabled state) (fun h => nomatch h))
    (silenceOk_stopped ⟨fun h => (nomatch h), fun h => (nomatch h)⟩ rfl)

theorem lifeOk_takeSync (hs : ∀ j, (s.station j).lifeOk) (state : (s.station i).state ≠ .disabled)
    (j : StationId) : ((takeSync s i).station j).lifeOk := by
  refine (engineFrame_takeSync s i).lifeOk hs (lifeOk_becomeSynced ?_ ?_) j
  · rw [station_updStation_self]
    exact ⟨⟨(hs i).enable.1, fun _ => rfl⟩, (hs i).rest, (hs i).gate, (hs i).silence⟩
  · rw [station_updStation_self]
    exact state

theorem lifeOk_restart (hs : ∀ j, (s.station j).lifeOk) (j : StationId) :
    ((restartStation s i).station j).lifeOk := by
  refine (engineFrame_restartStation s i).lifeOk hs ?_ j
  have reopened : ∀ u : State, (u.station i).lifeOk → ((reopenWindow u i).station i).lifeOk := fun u hu => by
    rw [reopenWindow, updLink_eq, station_updStation_self]
    exact ⟨hu.enable, hu.rest, hu.gate, hu.silence⟩
  unfold restartStation
  cases hstate : (s.station i).state with
  | disabled => exact hs i
  | offline => exact hs i
  | synced => exact reopened s (hs i)
  | calibrating | live | lost =>
    exact reopened _ (lifeOk_becomeSynced (hs i) (by rw [hstate]; exact fun h => nomatch h))

theorem lifeOk_takeSilence (hs : ∀ j, (s.station j).lifeOk) (j : StationId) :
    ((takeSilence s i).station j).lifeOk := by
  refine (engineFrame_takeSilence s i).lifeOk hs ?_ j
  unfold takeSilence
  cases hstate : (s.station i).state with
  | live =>
    simp only [station_report, stopSilence, updLink_eq, station_updStation_self, leaveLive_station]
    exact lifeOk_atRest rfl rfl rfl
      (enableOk_of_enabled ((hs i).enabled (by rw [hstate]; exact fun h => nomatch h)) (fun h => nomatch h))
      (silenceOk_stopped ⟨fun h => (nomatch h), fun h => (nomatch h)⟩ rfl)
  | calibrating =>
    rw [station_report]
    exact lifeOk_becomeSynced (hs i) (by rw [hstate]; exact fun h => nomatch h)
  | disabled | offline | synced | lost => exact hs i

/-- A buffer emptied leaves the lifecycle in order. -/
theorem lifeOk_dropBuffer (hs : ∀ j, (s.station j).lifeOk) (j : StationId) :
    ((dropBuffer s i).station j).lifeOk := by
  refine (engineFrame_updStation s i _).lifeOk hs ?_ j
  rw [station_updStation_self]
  exact ⟨(hs i).enable, (hs i).rest, (hs i).gate, (hs i).silence⟩

/-- A reply falling due changes the transmitter only. -/
theorem station_replyDue (seq : Nat) : ∃ sending waiting, (replyDue s i seq).station i =
    { s.station i with link := { (s.station i).link with sending := sending, waiting := waiting } } := by
  simp only [replyDue, station_updStation_self, Link.queueReply]
  split <;> exact ⟨_, _, rfl⟩

theorem lifeOk_replyDue (hs : (s.station i).lifeOk) (seq : Nat) : ((replyDue s i seq).station i).lifeOk := by
  obtain ⟨_, _, h⟩ := station_replyDue (s := s) (i := i) seq
  rw [h]
  exact ⟨hs.enable, hs.rest, hs.gate, hs.silence⟩

theorem lifeOk_takeHello (hs : ∀ j, (s.station j).lifeOk) (joined : Joined s i) (cls keyCount preference seq : Nat)
    (j : StationId) : ((takeHello s i cls keyCount preference seq).station j).lifeOk := by
  refine (engineFrame_takeHello s i cls keyCount preference seq).lifeOk hs ?_ j
  have stored : ((storeHello s i cls keyCount preference).station i).restOk := by
    rw [storeHello, station_updStation_self]
    exact (hs i).rest
  have entered := enterState_station _ _ .calibrating stored
  rw [storeHello, station_updStation_self] at entered
  have enable := (hs i).enabled joined.1
  unfold takeHello
  refine lifeOk_replyDue ?_ seq
  split
  · simp only [startSilence, updLink_eq, station_updStation_self, storeHello, entered]
    exact lifeOk_atRest rfl rfl rfl (enableOk_of_enabled enable (fun h => nomatch h))
      (silenceOk_running (.inl rfl) rfl)
  · next state =>
    simp only [storeHello, entered]
    refine lifeOk_atRest rfl rfl rfl (enableOk_of_enabled enable (fun h => nomatch h)) ?_
    have running : (s.station i).link.silence ≠ .stopped := fun h => by
      obtain ⟨disabled, offline⟩ := joined
      obtain ⟨notCalibrating, notLive⟩ := (hs i).silence.1.1 h
      cases hstate : (s.station i).state <;> simp_all
    exact ⟨⟨fun h => absurd h running, fun h => absurd rfl h.1⟩, (hs i).silence.2⟩

end Changes

end Sys2Proof.Machine
end

section
/-! The lifecycle over the rows (chapter 7): frames, settings, the receiver, the sample period, and O58. -/

namespace Sys2Proof.Machine

/-! ### Frames -/

section Frames
variable {s : State} {i : StationId}

/-- A change of other items than state, settings, breath state, note, stall and silence timer keeps the lifecycle. -/
theorem Station.lifeOk.of_eq {x y : Station} (hx : x.lifeOk) (state : y.state = x.state)
    (enable : y.settings.enable = x.settings.enable) (breath : y.breath = x.breath)
    (fingering : y.fingering = x.fingering) (stall : y.stall = x.stall) (handed : y.syncHanded = x.syncHanded)
    (silence : y.link.silence = x.link.silence) : y.lifeOk where
  enable := by have := hx.enable; rwa [Station.enableOk, ← state, ← enable, ← handed] at this
  rest := by have := hx.rest; rwa [Station.restOk, ← state, ← breath, ← fingering, ← stall] at this
  gate := by have := hx.gate; rwa [Station.gateOk, ← state, ← breath, ← fingering] at this
  silence := by have := hx.silence; rwa [Station.silenceOk, ← state, ← silence] at this

/-- A station outside LIVE has neither a note nor an onset. -/
theorem Station.lifeOk.noNote {x : Station} (hx : x.lifeOk) (state : x.state ≠ .live) :
    ¬ (x.fingering.note.isSome = true ∨ x.fingering.onsetPending = true) :=
  fun h => state (hx.gate h).1

theorem lifeOk_sampleStation {x : Station} (hx : x.lifeOk) (state : x.state = .calibrating) (b lip : Nat) :
    (sampleStation b lip x).lifeOk := by
  have enabled := hx.enabled (by rw [state]; exact fun h => nomatch h)
  have noNote := hx.noNote (by rw [state]; exact fun h => nomatch h)
  have running : x.link.silence ≠ .stopped := fun h => (hx.silence.1.1 h).1 state
  unfold sampleStation
  dsimp only
  split
  · exact ⟨enableOk_of_enabled enabled (fun h => nomatch h), fun notLive => absurd rfl notLive,
      fun h => absurd h noNote, ⟨fun h => absurd h running, fun h => absurd rfl h.2⟩, hx.silence.2⟩
  · exact hx.of_eq rfl rfl rfl rfl rfl rfl rfl

theorem lifeOk_takePlay (hs : ∀ j, (s.station j).lifeOk) (keys : Word) (breath lip seq : Nat) (j : StationId) :
    ((takePlay s i keys breath lip seq).station j).lifeOk := by
  cases hstate : (s.station i).state with
  | disabled | offline =>
    simp only [takePlay, hstate]
    exact hs j
  | synced =>
    refine (engineFrame_takePlay s i keys breath lip seq).lifeOk hs ?_ j
    simp only [takePlay, hstate, protocolFault, station_report, updCounters_eq, station_updStation_self]
    exact (hs i).of_eq hstate.symm rfl rfl rfl rfl rfl rfl
  | calibrating =>
    refine (engineFrame_takePlay s i keys breath lip seq).lifeOk hs ?_ j
    simp only [takePlay, hstate, takeSample]
    refine lifeOk_replyDue ?_ seq
    rw [station_updStation_self]
    exact lifeOk_sampleStation (hs i) hstate _ _
  | live =>
    simp only [takePlay, hstate]
    exact lifeOk_performFrame hs hstate keys breath lip seq j
  | lost =>
    simp only [takePlay, hstate]
    have enabled := (hs i).enabled (by rw [hstate]; exact fun h => nomatch h)
    have noNote := (hs i).noNote (by rw [hstate]; exact fun h => nomatch h)
    refine lifeOk_performFrame ((EngineFrame.trans (engineFrame_updStation s i _)
      (engineFrame_updStation _ i _)).lifeOk hs ?_) ?_ keys breath lip seq j
    · rw [station_updStation_self, station_updStation_self]
      exact ⟨enableOk_of_enabled enabled (fun h => nomatch h), fun notLive => absurd rfl notLive,
        fun h => absurd h noNote, silenceOk_running (.inr rfl) rfl⟩
    · rw [station_updStation_self, station_updStation_self]

theorem lifeOk_takeHush (hs : ∀ j, (s.station j).lifeOk) (j : StationId) :
    ((takeHush s i).station j).lifeOk := by
  refine (engineFrame_takeHush s i).lifeOk hs ?_ j
  unfold takeHush
  split
  · next live =>
    simp only [clearBreath, hushFingering, updBreath_eq, updFingering_eq, station_updStation_self, noteOff_station]
    refine ⟨(hs i).enable, fun notLive => absurd live notLive, fun h => ?_, (hs i).silence⟩
    rcases h with h | h <;> cases h
  · exact hs i

end Frames

/-! ### Settings -/

section Settings
variable {s : State} {i : StationId}

/-- What the settings do to the breath state at once leaves GATE, and a breath state at rest. -/
theorem gate_actOnBreath (ceiling range : Nat) (changed : Bool) (x : Breath) :
    (forgetOverblow changed (limitBend range (limitLevel ceiling x))).ind.gate = x.ind.gate := by
  unfold forgetOverblow limitBend limitLevel
  split <;> split <;> split <;> rfl

theorem actOnBreath_atRest (ceiling range : Nat) (changed : Bool) {x : Breath} (h : x = x.atRest) :
    forgetOverblow changed (limitBend range (limitLevel ceiling x)) = x := by
  have level : x.level = 0 := by rw [h]; rfl
  have bend : x.bend = 0 := by rw [h]; rfl
  have history : x.history = false := by rw [h]; rfl
  have unlimited : limitBend range (limitLevel ceiling x) = x := by
    simp [limitLevel, limitBend, level, bend]
  rw [unlimited, forgetOverblow, ← history]
  split <;> rfl

/-- Disabling a station whose note and breath state are at rest where they must be. -/
theorem station_disableStation (h : (s.station i).restOk) :
    (disableStation s i).station i =
      { s.station i with
        state := .disabled
        stall := none
        breath := (s.station i).breath.atRest
        fingering := (s.station i).fingering.atRest
        calib := Calibration.fresh
        syncHanded := false
        link := (s.station i).link.disabled } := by
  simp only [disableStation, station_unclip, station_updStation_self, enterState_station s i _ h]

/-- Stored settings acting by their enable setting keep the station's lifecycle in order. -/
theorem lifeOk_actOnEnable (hs : (s.station i).lifeOk) (new : Settings) :
    ((actOnEnable (s.updStation i fun x => { x with settings := new }) i (s.station i).settings).station i).lifeOk := by
  unfold actOnEnable
  rw [station_updStation_self]
  dsimp only
  cases old : (s.station i).settings.enable with
  | true =>
    cases now : new.enable with
    | true =>
      dsimp only
      rw [station_updStation_self]
      exact hs.of_eq rfl (now.trans old.symm) rfl rfl rfl rfl rfl
    | false =>
      dsimp only
      rw [station_disableStation (by rw [station_updStation_self]; exact hs.rest), station_updStation_self]
      exact lifeOk_atRest rfl rfl rfl ⟨⟨fun _ => rfl, fun _ => now⟩, fun _ => rfl⟩
        (silenceOk_stopped ⟨fun h => (nomatch h), fun h => (nomatch h)⟩ rfl)
  | false =>
    have disabled : (s.station i).state = .disabled := hs.enable.1.1 old
    cases now : new.enable with
    | true =>
      obtain ⟨breath, fingering, stall⟩ := hs.rest (by rw [disabled]; exact fun h => nomatch h)
      have silent : (s.station i).link.silence = .stopped :=
        hs.silence.1.2 (by rw [disabled]; exact ⟨fun h => (nomatch h), fun h => (nomatch h)⟩)
      dsimp only
      rw [enableStation, station_updStation_self, station_updStation_self]
      exact lifeOk_atRest breath fingering stall (enableOk_of_enabled now (fun h => nomatch h))
        (silenceOk_stopped ⟨fun h => (nomatch h), fun h => (nomatch h)⟩ silent)
    | false =>
      dsimp only
      rw [station_updStation_self]
      exact hs.of_eq rfl (now.trans old.symm) rfl rfl rfl rfl rfl

theorem lifeOk_settingsActOnBreath (hs : (s.station i).lifeOk) (old : Settings) :
    ((settingsActOnBreath s i old).station i).lifeOk := by
  rw [settingsActOnBreath, station_updStation_self]
  by_cases live : (s.station i).state = .live
  · refine hs.goesOn live ⟨⟨rfl, rfl, rfl, rfl, ?_⟩, id⟩
    exact gate_actOnBreath _ _ _ _
  · exact hs.of_eq rfl rfl (actOnBreath_atRest _ _ _ (hs.rest live).1) rfl rfl rfl rfl

theorem lifeOk_applySettings (hs : ∀ j, (s.station j).lifeOk) (new : Settings) (j : StationId) :
    ((applySettings s i new).station j).lifeOk := by
  have start : ∀ j, ((if (s.station i).settings.enable = true ∧ new.enable = false then s.unclip i else s).station
      j).lifeOk := fun j => by split <;> exact hs j
  refine (engineFrame_applySettings s i new).lifeOk start ?_ j
  unfold applySettings
  dsimp only
  have acted := lifeOk_settingsActOnBreath (lifeOk_actOnEnable (hs i) new) (s.station i).settings
  obtain ⟨u, hu⟩ : ∃ u, u = settingsActOnBreath
    (actOnEnable (s.updStation i fun x => { x with settings := new }) i (s.station i).settings) i
      (s.station i).settings := ⟨_, rfl⟩
  rw [← hu] at acted ⊢
  have resumed : ((actOnStall u i).station i).lifeOk := by
    unfold actOnStall
    split
    · exact acted
    · by_cases live : (u.station i).state = .live
      · exact acted.goesOn live (goesOn_resumeStall u i)
      · have noStall : (u.station i).stall = none := (acted.rest live).2.2
        unfold resumeStall
        rw [noStall]
        exact acted
  have capped : AllocatorFrame (actOnStall u i) (actOnCap (actOnStall u i) i (s.station i).settings) := by
    unfold actOnCap
    split
    · exact allocatorFrame_lowerToCap _ i
    · exact .refl _
  have served : ∀ w : State, AllocatorFrame w (actOnPool w (s.station i).settings new) := fun w => by
    unfold actOnPool
    split
    · exact .refl w
    · exact allocatorFrame_serveStarved w
  exact ((served _).2.2.1 i).lifeOk ((capped.2.2.1 i).lifeOk resumed)

end Settings

/-! ### The receiver -/

/-- Of a station, the receiver changes the link only, and the silence timer only by restarting it in CALIBRATING and
LIVE (R150). -/
structure Receives (x y : Station) : Prop where
  link : y = { x with link := y.link }
  silence : y.link.silence = x.link.silence
    ∨ ((x.state = .calibrating ∨ x.state = .live) ∧ y.link.silence = .running 1152)

theorem Receives.refl (x : Station) : Receives x x := ⟨rfl, .inl rfl⟩

theorem Receives.trans {x y z : Station} (h : Receives x y) (k : Receives y z) : Receives x z := by
  have state : y.state = x.state := by rw [h.link]
  refine ⟨by rw [k.link, h.link], ?_⟩
  rcases k.silence with e | ⟨hs, e⟩
  · exact h.silence.imp (e.trans ·) fun ⟨hs, e'⟩ => ⟨hs, e.trans e'⟩
  · exact .inr ⟨state ▸ hs, e⟩

/-- What the receiver does keeps the lifecycle in order. -/
theorem Receives.lifeOk {x y : Station} (h : Receives x y) (hx : x.lifeOk) : y.lifeOk := by
  obtain ⟨link, silence⟩ := h
  rcases silence with e | ⟨hs, e⟩
  · rw [link]
    exact hx.of_eq rfl rfl rfl rfl rfl rfl e
  · have state : y.state = x.state := by rw [link]
    have running := silenceOk_running (x := y) (by rwa [state]) e
    rw [link] at running ⊢
    exact ⟨hx.enable, hx.rest, hx.gate, running⟩

section Receiver
variable (s : State) (i : StationId)

theorem receives_updLink (f : Link → Link) (h : (f (s.station i).link).silence = (s.station i).link.silence) :
    Receives (s.station i) ((s.updLink i f).station i) := by
  rw [updLink_eq, station_updStation_self]
  exact ⟨rfl, .inl h⟩

theorem receives_updCounters (f : LinkCounters → LinkCounters) :
    Receives (s.station i) ((s.updCounters i f).station i) := receives_updLink s i _ rfl

theorem receives_protocolFault (cause : Nat) (ch : Byte) (gathered : Nat) :
    Receives (s.station i) ((protocolFault s i cause ch gathered).station i) := by
  rw [protocolFault, station_report]
  exact receives_updCounters s i _

theorem receives_acceptFrame (f : Frame) (missed : Nat) :
    Receives (s.station i) ((acceptFrame s i f missed).station i) := by
  unfold acceptFrame
  dsimp only
  split
  · next state =>
    simp only [startSilence, updLink_eq, station_updStation_self]
    exact ⟨rfl, .inr ⟨state, rfl⟩⟩
  · exact receives_updLink s i _ rfl

theorem receives_completeFrame (a : FrameAssembly) :
    Receives (s.station i) ((completeFrame s i a).station i) := by
  unfold completeFrame windowFrame
  split
  · split
    · exact receives_updCounters s i _
    · split
      · exact receives_acceptFrame s i _ _
      · exact .refl _
  · rw [station_report]
    exact receives_updCounters s i _

theorem receives_dropIncomplete : Receives (s.station i) ((dropIncomplete s i).station i) := by
  unfold dropIncomplete
  split
  · exact .refl _
  · exact (receives_updLink s i _ rfl).trans (receives_protocolFault _ i _ _ _)

theorem receives_takeCharacter (d : Byte) (mark : Bool) :
    Receives (s.station i) ((takeCharacter s i d mark).station i) := by
  unfold takeCharacter beginAssembly takeData
  split
  · split
    · exact .refl _
    · refine (receives_dropIncomplete s i).trans ?_
      split
      · exact receives_updLink _ i _ rfl
      · exact receives_protocolFault _ i _ _ _
  · split
    · exact receives_protocolFault s i _ _ _
    · dsimp only
      split
      · exact (receives_updLink s i _ rfl).trans (receives_completeFrame _ i _)
      · exact receives_updLink s i _ rfl

theorem receives_endCharacter (bits : List Bool) : Receives (s.station i) ((endCharacter s i bits).station i) := by
  unfold endCharacter
  split
  · exact receives_takeCharacter s i _ _
  · rw [framingError, station_report]
    exact (receives_updLink s i _ rfl).trans (receives_updCounters _ i _)

theorem receives_hearLevels (T : Nat) (c : CharacterAssembly) (levels : List Bool) :
    Receives (s.station i) ((hearLevels i T c s levels).station i) := by
  induction levels generalizing c s with
  | nil => exact receives_updLink s i _ rfl
  | cons level levels ih =>
    rw [hearLevels]
    split
    · exact ih _ _
    · exact ((receives_updLink s i _ rfl).trans (receives_endCharacter _ i _)).trans (ih _ _)

variable {s i}

theorem not_disabled_of_listens (h : lineIgnored s i = false) : (s.station i).state ≠ .disabled := by
  simp only [lineIgnored, Bool.or_eq_false_iff, beq_eq_false_iff_ne] at h
  exact h.2

theorem lifeOk_handSync (hs : ∀ j, (s.station j).lifeOk) (state : (s.station i).state ≠ .disabled)
    (j : StationId) : ((handSync s i).station j).lifeOk := by
  unfold handSync
  split
  · exact lifeOk_takeSync hs state j
  · refine (engineFrame_updStation s i _).lifeOk hs ?_ j
    rw [station_updStation_self]
    exact ⟨⟨(hs i).enable.1, fun h => absurd h state⟩, (hs i).rest, (hs i).gate, (hs i).silence⟩

end Receiver

/-! ### The rows -/

theorem stations_clips (sums : Sums) (l : List StationId) (s : State) :
    (l.foldl (clipStation sums) s).stations = s.stations := by
  induction l generalizing s with
  | nil => rfl
  | cons i l ih =>
    rw [List.foldl_cons, ih]
    unfold clipStation
    dsimp only
    split <;> rfl

/-- The clocks, and nothing else of a sample period but slots' states, act on a station. -/
theorem sameStation_samplePeriod (voices : List VoiceId) (stations : List StationId) (s : State) (j : StationId) :
    SameStation (tickClocks s) (samplePeriod voices stations s) j := by
  have rendered := (allocatorFrame_renderVoices voices (tickClocks s)).2.2.1 j
  unfold SameStation State.station samplePeriod at *
  dsimp only
  rw [stations_clips]
  exact rendered

/-- Time that goes by for timers and reply transmitter keeps the lifecycle in order. -/
theorem lifeOk_tickStation {x : Station} (hx : x.lifeOk) (n : Nat) : (tickStation n x).lifeOk where
  enable := hx.enable
  rest := fun notLive => by
    obtain ⟨breath, fingering, stall⟩ := hx.rest notLive
    refine ⟨breath, ?_, stall⟩
    have stopped : x.fingering.settle.tick = x.fingering.settle := by rw [fingering]; rfl
    show { x.fingering with settle := x.fingering.settle.tick } = x.fingering.atRest
    rw [stopped]
    exact fingering
  gate := hx.gate
  silence := by
    obtain ⟨stopped, most⟩ := hx.silence
    show (x.link.silence.tick = .stopped ↔ _) ∧ ∀ n, x.link.silence.tick = .running n → 1 ≤ n ∧ n ≤ 1152
    cases hsil : x.link.silence with
    | stopped => rw [hsil] at stopped; exact ⟨stopped, fun n h => nomatch h⟩
    | expired =>
      rw [hsil] at stopped
      exact ⟨⟨fun h => (nomatch h), fun h => (nomatch stopped.2 h)⟩, fun n h => nomatch h⟩
    | running m =>
      rw [hsil] at stopped
      have atMost := most m hsil
      unfold Timer.tick
      dsimp only
      split
      · exact ⟨⟨fun h => (nomatch h), fun h => (nomatch stopped.2 h)⟩, fun n h => nomatch h⟩
      · refine ⟨⟨fun h => (nomatch h), fun h => (nomatch stopped.2 h)⟩, fun n h => ?_⟩
        cases h
        omega

theorem station_map (s : State) (f : Station → Station) (j : StationId) :
    ({ s with stations := s.stations.map f } : State).station j = f (s.station j) := by simp [State.station]

theorem lifeOk_panicked {x : Station} (hx : x.lifeOk) : x.panicked.lifeOk where
  enable := hx.enable
  rest := fun notLive => by
    obtain ⟨breath, fingering, stall⟩ := hx.rest notLive
    refine ⟨breath, ?_, stall⟩
    show { x.fingering with note := none, onsetPending := false } = x.fingering.atRest
    rw [fingering]
    rfl
  gate := fun h => by rcases h with h | h <;> cases h
  silence := hx.silence

theorem lifeOk_countersCleared {x : Station} (hx : x.lifeOk) : x.countersCleared.lifeOk where
  enable := hx.enable
  rest := fun notLive => by
    obtain ⟨breath, fingering, stall⟩ := hx.rest notLive
    refine ⟨breath, ?_, stall⟩
    show { x.fingering with misses := 0 } = Fingering.atRest { x.fingering with misses := 0 }
    rw [fingering]
    rfl
  gate := hx.gate
  silence := hx.silence

theorem station_pinReset (s : State) (j : StationId) : (pinResetState s).station j = Station.reset := by
  simp [State.station, pinResetState, State.reset]

/-- Every effect keeps the stations' lifecycles in order. -/
theorem Effect.lifeOk {s t : State} (h : Effect s t) (hs : ∀ j, (s.station j).lifeOk) (j : StationId) :
    (t.station j).lifeOk := by
  cases h with
  | nothing | cleared | edited | templates | waves | written | glided => exact hs j
  | poweredOn =>
    have : State.reset.station j = Station.reset := by simp [State.station, State.reset]
    rw [this]
    exact lifeOk_reset
  | pinReset => rw [station_pinReset]; exact lifeOk_reset
  | settings i p template chart => exact lifeOk_applySettings hs _ j
  | senses i x =>
    refine (engineFrame_updStation s i _).lifeOk hs ?_ j
    rw [station_updStation_self]
    exact (hs i).of_eq rfl rfl rfl rfl rfl rfl rfl
  | countersCleared i =>
    refine (engineFrame_updStation s i _).lifeOk hs ?_ j
    rw [station_updStation_self]
    exact lifeOk_countersCleared (hs i)
  | restarted i => exact lifeOk_restart hs j
  | panicked =>
    have : ({ panicPool s with stations := s.stations.map Station.panicked } : State).station j =
        (s.station j).panicked := station_map s _ j
    rw [this]
    exact lifeOk_panicked (hs j)
  | editCompleted order => exact lifeOk_resumeStalls (s := { s with charts := s.charts.complete }) hs j
  | heard i T levels =>
    exact (engineFrame_hearLevels i T _ s levels).lifeOk hs ((receives_hearLevels s i T _ levels).lifeOk (hs i)) j
  | synced i T listens =>
    have received := (receives_dropIncomplete s i).trans
      (receives_updLink (dropIncomplete s i) i (fun l => l.synced T) rfl)
    have heard := ((engineFrame_dropIncomplete s i).trans
      (engineFrame_updStation _ i fun x => { x with link := x.link.synced T })).lifeOk hs (received.lifeOk (hs i))
    refine lifeOk_handSync heard ?_ j
    show (((dropIncomplete s i).updLink i fun l => l.synced T).station i).state ≠ .disabled
    rw [received.link]
    exact not_disabled_of_listens listens
  | syncTaken i handed =>
    refine lifeOk_takeSync hs (fun disabled => ?_) j
    rw [(hs i).enable.2 disabled] at handed
    cases handed
  | hello i joined =>
    refine lifeOk_takeHello (lifeOk_dropBuffer hs) ?_ _ _ _ _ j
    simpa [Joined, dropBuffer, updLink_eq] using joined
  | played i => exact lifeOk_takePlay (lifeOk_dropBuffer hs) _ _ _ _ j
  | hushed i => exact lifeOk_takeHush (lifeOk_dropBuffer hs) j
  | replyEnded i =>
    refine (engineFrame_updStation s i _).lifeOk hs ?_ j
    rw [station_updStation_self]
    refine (hs i).of_eq rfl rfl rfl rfl rfl rfl ?_
    unfold Link.endReply
    dsimp only
    split <;> rfl
  | settled i live =>
    refine ((engineFrame_updStation s i _).trans (engineFrame_resolveOrStall _ i _)).lifeOk hs ?_ j
    refine (hs i).goesOn live (GoesOn.trans ?_ (goesOn_resolveOrStall _ i _))
    rw [station_updStation_self]
    exact ⟨⟨rfl, rfl, rfl, rfl, rfl⟩, id⟩
  | silent i => exact lifeOk_takeSilence hs j
  | sampled voices stations =>
    refine (sameStation_samplePeriod voices stations s j).lifeOk ?_
    have : (tickClocks s).station j = tickStation (restOfFrame s) (s.station j) := by
      simp [tickClocks, State.station]
    rw [this]
    exact lifeOk_tickStation (hs j) _
  | retired v | released v | drained v => exact (allocatorFrame_freeVoice s v).lifeOk hs j
  | handedOver v c => exact (allocatorFrame_handOver s c).lifeOk hs j

theorem lifeOk_passBitTime {s : State} (hs : ∀ j, (s.station j).lifeOk) (j : StationId) :
    ((passBitTime s).station j).lifeOk := by
  rw [station_passBitTime]
  split
  · exact (hs j).of_eq rfl rfl rfl rfl rfl rfl rfl
  · exact hs j

end Sys2Proof.Machine
end

section
/-! The clip states of DISABLED stations (R119), and O58, which they complete. -/

namespace Sys2Proof.Machine

section Clips
variable {s t : State} {i : StationId}

/-- Where the clip states stay and no station becomes DISABLED, DISABLED stations still show unsaturated. -/
theorem ClipsOk.of_same (hs : ClipsOk s) (clip : t.audio.clip = s.audio.clip)
    (state : ∀ j, (t.station j).state = .disabled → (s.station j).state = .disabled) : ClipsOk t := fun j hj => by
  rw [clip]
  exact hs j (state j hj)

theorem ClipsOk.allocator (hs : ClipsOk s) (h : AllocatorFrame s t) : ClipsOk t := by
  obtain ⟨-, ⟨-, -, -, -, audio, -, -⟩, same, -⟩ := h
  exact hs.of_same (by rw [audio]) fun j hj => (same j).goesOn.state.symm.trans hj

/-- An engine's event that does not disable its station keeps the clip states in order. -/
theorem ClipsOk.engine (hs : ClipsOk s) (h : EngineFrame s t i)
    (hi : (t.station i).state = .disabled → (s.station i).state = .disabled) : ClipsOk t := by
  obtain ⟨-, ⟨-, -, -, -, audio, -, -⟩, others, -⟩ := h
  refine hs.of_same (by rw [audio]) fun j hj => ?_
  by_cases e : j = i
  · subst e; exact hi hj
  · exact (others j e).goesOn.state.symm.trans hj

theorem ClipsOk.updStation (hs : ClipsOk s) {f : Station → Station}
    (hf : (f (s.station i)).state = (s.station i).state) : ClipsOk (s.updStation i f) :=
  hs.engine (engineFrame_updStation s i f) fun h => by rw [station_updStation_self, hf] at h; exact h

/-- The state that a change of state names is the state taken. -/
theorem state_enterState (s : State) (i : StationId) (x : StationState) :
    ((enterState s i x).station i).state = x := by simp [enterState]

theorem state_becomeSynced (s : State) (i : StationId) : ((becomeSynced s i).station i).state = .synced := by
  simp [becomeSynced, stopSilence, updLink_eq, state_enterState]

theorem state_performFrame (s : State) (i : StationId) (keys : Word) (breath lip seq : Nat) :
    ((performFrame s i keys breath lip seq).station i).state = (s.station i).state := by
  unfold performFrame fingerFrame
  dsimp only
  have begun : ∀ c, ((beginFrame (computeBreath s i breath lip) i c keys).station i).state
      = (s.station i).state := fun c => by
    obtain ⟨settle, h⟩ := station_beginFrame (s := computeBreath s i breath lip) (i := i) c keys
    rw [h, computeBreath, station_updStation_self]
  split
  · exact (goesOn_resolveOrStall _ i _).state.trans (begun _)
  · exact (goesOn_finishWork _ i _).state.trans (begun _)

theorem clipsOk_resumeStall (hs : ClipsOk s) (i : StationId) : ClipsOk (resumeStall s i) :=
  hs.engine (engineFrame_resumeStall s i) fun h => (goesOn_resumeStall s i).state.symm.trans h

theorem clipsOk_takeSync (hs : ClipsOk s) (i : StationId) : ClipsOk (takeSync s i) :=
  hs.engine (engineFrame_takeSync s i) fun h => by rw [takeSync, state_becomeSynced] at h; cases h

theorem clipsOk_restart (hs : ClipsOk s) (i : StationId) : ClipsOk (restartStation s i) := by
  refine hs.engine (engineFrame_restartStation s i) fun h => ?_
  unfold restartStation at h
  split at h
  · exact h
  · exact h
  · rwa [reopenWindow, updLink_eq, station_updStation_self] at h
  all_goals
    rw [reopenWindow, updLink_eq, station_updStation_self] at h
    rw [state_becomeSynced] at h
    cases h

theorem clipsOk_takeSilence (hs : ClipsOk s) (i : StationId) : ClipsOk (takeSilence s i) := by
  refine hs.engine (engineFrame_takeSilence s i) fun h => ?_
  unfold takeSilence at h
  split at h
  · simp only [station_report, stopSilence, updLink_eq, station_updStation_self, leaveLive_station] at h
    cases h
  · rw [station_report, state_becomeSynced] at h
    cases h
  all_goals exact h

theorem clipsOk_takeHello (hs : ClipsOk s) (i : StationId) (cls keyCount preference seq : Nat) :
    ClipsOk (takeHello s i cls keyCount preference seq) := by
  refine hs.engine (engineFrame_takeHello s i cls keyCount preference seq) fun h => ?_
  unfold takeHello at h
  dsimp only at h
  rw [replyDue, station_updStation_self] at h
  dsimp only at h
  split at h
  · rw [startSilence, updLink_eq, station_updStation_self] at h
    dsimp only at h
    rw [state_enterState] at h
    cases h
  · rw [state_enterState] at h
    cases h

theorem clipsOk_takePlay (hs : ClipsOk s) (i : StationId) (keys : Word) (breath lip seq : Nat) :
    ClipsOk (takePlay s i keys breath lip seq) := by
  refine hs.engine (engineFrame_takePlay s i keys breath lip seq) fun h => ?_
  cases hstate : (s.station i).state with
  | disabled => rfl
  | calibrating =>
    simp only [takePlay, hstate, takeSample, replyDue, station_updStation_self, sampleStation] at h
    split at h <;> cases h
  | offline | synced | live | lost =>
    simp only [takePlay, hstate, protocolFault, station_report, updCounters_eq, station_updStation_self,
      state_performFrame, startSilence, updLink_eq] at h
    cases h

theorem clipsOk_dropBuffer (hs : ClipsOk s) (i : StationId) : ClipsOk (dropBuffer s i) := hs.updStation rfl

theorem clipsOk_takeHush (hs : ClipsOk s) (i : StationId) : ClipsOk (takeHush s i) := by
  refine hs.engine (engineFrame_takeHush s i) fun h => ?_
  unfold takeHush at h
  split at h
  · simpa only [clearBreath, hushFingering, updBreath_eq, updFingering_eq, station_updStation_self,
      noteOff_station] using h
  · exact h

/-- The receiver keeps the clip states in order. -/
theorem ClipsOk.receives (hs : ClipsOk s) (h : EngineFrame s t i) (k : Receives (s.station i) (t.station i)) :
    ClipsOk t := hs.engine h fun hd => by rwa [k.link] at hd

theorem clipsOk_handSync (hs : ClipsOk s) (i : StationId) : ClipsOk (handSync s i) := by
  unfold handSync
  split
  · exact clipsOk_takeSync hs i
  · exact hs.updStation rfl

/-! ### Settings -/

/-- The settings act on a station's state by their enable setting alone. -/
theorem state_applySettings (s : State) (i : StationId) (new : Settings) :
    ((applySettings s i new).station i).state =
      ((actOnEnable (s.updStation i fun x => { x with settings := new }) i (s.station i).settings).station i).state := by
  unfold applySettings
  dsimp only
  generalize actOnEnable (s.updStation i fun x => { x with settings := new }) i (s.station i).settings = u
  have breath : ((settingsActOnBreath u i (s.station i).settings).station i).state = (u.station i).state := by
    rw [settingsActOnBreath, station_updStation_self]
  have stall : ∀ w : State, ((actOnStall w i).station i).state = (w.station i).state := fun w => by
    unfold actOnStall
    split
    · rfl
    · exact (goesOn_resumeStall w i).state
  have cap : ∀ w : State, ((actOnCap w i (s.station i).settings).station i).state = (w.station i).state := fun w => by
    unfold actOnCap
    split
    · exact ((allocatorFrame_lowerToCap w i).2.2.1 i).goesOn.state
    · rfl
  have pool : ∀ w : State, ((actOnPool w (s.station i).settings new).station i).state = (w.station i).state :=
    fun w => by
      unfold actOnPool
      split
      · rfl
      · exact ((allocatorFrame_serveStarved w).2.2.1 i).goesOn.state
  rw [pool, cap, stall, breath]

/-- A station DISABLED by its new settings shows unsaturated; by them no other becomes DISABLED. -/
theorem clipsOk_applySettings (hs : ClipsOk s) (i : StationId) (new : Settings) :
    ClipsOk (applySettings s i new) := by
  have frame := engineFrame_applySettings s i new
  by_cases disables : (s.station i).settings.enable = true ∧ new.enable = false
  · rw [if_pos disables] at frame
    obtain ⟨-, ⟨-, -, -, -, audio, -, -⟩, others, -⟩ := frame
    intro j hj
    rw [audio, audio_unclip]
    by_cases e : j = i
    · subst e; simp
    · have : i.val ≠ j.val := fun h => e (Fin.ext h.symm)
      have still : s.audio.clip[j] = false := hs j ((others j e).goesOn.state.symm.trans hj)
      simpa [this] using still
  · rw [if_neg disables] at frame
    refine hs.engine frame fun h => ?_
    rw [state_applySettings, actOnEnable, station_updStation_self] at h
    dsimp only at h
    cases old : (s.station i).settings.enable <;> cases now : new.enable <;> simp only [old, now] at h
    · rwa [station_updStation_self] at h
    · rw [enableStation, station_updStation_self] at h
      cases h
    · exact absurd ⟨old, now⟩ disables
    · rwa [station_updStation_self] at h

/-! ### The sample period -/

theorem clipsOk_clipStation (hs : ClipsOk s) (sums : Sums) (i : StationId) : ClipsOk (clipStation sums s i) := by
  intro j hj
  have state : ((clipStation sums s i).station j).state = (s.station j).state := by
    unfold clipStation; dsimp only; split <;> rfl
  have clip : (clipStation sums s i).audio.clip = s.audio.clip.set i (clipDetail s i sums[i] != 0) := by
    unfold clipStation; dsimp only; split <;> rfl
  rw [state] at hj
  rw [clip]
  by_cases e : j = i
  · subst e
    simp [clipDetail, hj]
  · have : i.val ≠ j.val := fun h => e (Fin.ext h.symm)
    simpa [this] using hs j hj

theorem clipsOk_clips (sums : Sums) (l : List StationId) (hs : ClipsOk s) :
    ClipsOk (l.foldl (clipStation sums) s) := by
  induction l generalizing s with
  | nil => exact hs
  | cons i l ih => exact ih (clipsOk_clipStation hs sums i)

theorem clipsOk_samplePeriod (hs : ClipsOk s) (voices : List VoiceId) (stations : List StationId) :
    ClipsOk (samplePeriod voices stations s) := by
  have ticked : ClipsOk (tickClocks s) := hs.of_same rfl fun j hj => by
    have : (tickClocks s).station j = tickStation (restOfFrame s) (s.station j) := station_map s _ j
    rw [this] at hj
    exact hj
  exact clipsOk_clips _ _ (ClipsOk.of_same (ticked.allocator (allocatorFrame_renderVoices voices _)) rfl fun _ h => h)

/-! ### The rows -/

theorem clipsOk_of_none (h : ∀ j, (t.station j).state ≠ .disabled) : ClipsOk t := fun j hj => absurd hj (h j)

/-- Every effect keeps the clip states of DISABLED stations unsaturated. -/
theorem Effect.clipsOk (h : Effect s t) (hs : ClipsOk s) : ClipsOk t := by
  cases h with
  | nothing | cleared | edited | templates | waves | written | glided => exact hs
  | poweredOn =>
    refine clipsOk_of_none fun j => ?_
    simp [State.station, State.reset, Station.reset]
  | pinReset =>
    refine clipsOk_of_none fun j => ?_
    rw [station_pinReset]
    exact fun h => nomatch h
  | settings i p template chart => exact clipsOk_applySettings hs i _
  | senses i x => exact hs.updStation rfl
  | countersCleared i => exact hs.updStation rfl
  | restarted i => exact clipsOk_restart hs i
  | panicked =>
    refine hs.of_same rfl fun j hj => ?_
    have : ({ panicPool s with stations := s.stations.map Station.panicked } : State).station j =
        (s.station j).panicked := station_map s _ j
    rw [this] at hj
    exact hj
  | editCompleted order =>
    have fold : ∀ (l : List StationId) (u : State), ClipsOk u → ClipsOk (l.foldl resumeStall u) := by
      intro l
      induction l with
      | nil => exact fun _ hu => hu
      | cons i l ih => exact fun u hu => ih _ (clipsOk_resumeStall hu i)
    exact fold _ { s with charts := s.charts.complete } hs
  | heard i T levels => exact hs.receives (engineFrame_hearLevels i T _ s levels) (receives_hearLevels s i T _ levels)
  | synced i T listens =>
    exact clipsOk_handSync ((hs.receives (engineFrame_dropIncomplete s i) (receives_dropIncomplete s i)).updStation
      rfl) i
  | syncTaken i handed => exact clipsOk_takeSync hs i
  | hello i joined => exact clipsOk_takeHello (clipsOk_dropBuffer hs i) i _ _ _ _
  | played i => exact clipsOk_takePlay (clipsOk_dropBuffer hs i) i _ _ _ _
  | hushed i => exact clipsOk_takeHush (clipsOk_dropBuffer hs i) i
  | replyEnded i => exact hs.updStation rfl
  | settled i live =>
    refine ClipsOk.engine (t := resolveOrStall _ i .expiry) (hs.updStation rfl) (engineFrame_resolveOrStall _ i _)
      fun h => ?_
    exact (goesOn_resolveOrStall _ i _).state.symm.trans h
  | silent i => exact clipsOk_takeSilence hs i
  | sampled voices stations => exact clipsOk_samplePeriod hs voices stations
  | retired v | released v | drained v => exact hs.allocator (allocatorFrame_freeVoice s v)
  | handedOver v c => exact hs.allocator (allocatorFrame_handOver s c)

theorem clipsOk_passBitTime (hs : ClipsOk s) : ClipsOk (passBitTime s) := by
  refine hs.of_same ?_ fun j hj => ?_
  · unfold passBitTime
    split <;> rfl
  · rw [station_passBitTime] at hj
    split at hj <;> exact hj

end Clips

theorem station_of_sameInside {u t : State} (h : SameInside u t) (j : StationId) : t.station j = u.station j := by
  rw [State.station, State.station, h.stations]

/-- Settles O58: outside LIVE a station is at rest, and in LIVE its work goes on with GATE and the silence timer; a
clip state of a DISABLED station stays clear. -/
theorem stepsKeepTheLifecycle : Obligations.StepsKeepTheLifecycle := by
  refine ⟨fun s t life gated silent h => ?_, fun s t clips h => ?_⟩
  · refine (livesOk_iff t).1 (step_keeps (P := fun s => ∀ i, (s.station i).lifeOk) (fun hu hs j => ?_)
      (fun s hs => lifeOk_passBitTime hs) (fun he hs => he.lifeOk hs) ((livesOk_iff s).2 ⟨life, gated, silent⟩) h)
    rw [station_of_sameInside hu]
    exact hs j
  · exact step_keeps (P := ClipsOk) (fun hu hs => hs.of_same hu.clip fun j hj => by
      rwa [station_of_sameInside hu] at hj) (fun s hs => clipsOk_passBitTime hs) (fun he hs => he.clipsOk hs) clips h

end Sys2Proof.Machine
end

section
/-! What the voice pool's rules speak of (chapter 5): of each voice its state and owner, the three lists, and of each
note the slots' layers and states. The allocator's operations are said once on this view; that the pool's lists and the
slots go together (O56) and that the caps hold (O57) is then proved of views. -/

namespace Sys2Proof.Machine

/-! ### The view -/

/-- The pool as the rules on its lists see it. A slot is named as the owner of its voice would be. -/
@[ext] structure PoolView where
  state : VoiceId → VoiceState
  owner : VoiceId → Option Owner
  free : List VoiceId
  claims : List Claim
  starve : List Starved
  slot : Owner → Option SlotState
  layers : StationId → Option (Nat × List LayerId)

/-- The state of the slot that an owner names. -/
def slotState (s : State) (k : Owner) : Option SlotState := (slotOf s k.station k.tag k.layer).map Slot.state

/-- The tag and the slots' layers of station i's note. -/
def noteLayers (s : State) (i : StationId) : Option (Nat × List LayerId) :=
  (s.note i).map fun n => (n.tag, n.slots.map Slot.layer)

/-- The view of a part. -/
def view (s : State) : PoolView where
  state v := (s.voice v).state
  owner v := (s.voice v).owner
  free := s.freeList
  claims := s.claims
  starve := s.starve
  slot := slotState s
  layers := noteLayers s

/-- The entry of the starve list for a slot. -/
def Owner.starved (k : Owner) : Starved := ⟨k.station, k.tag, k.layer⟩

/-- The entry of the claim table for a slot and a voice. -/
def Owner.claiming (k : Owner) (v : VoiceId) : Claim := ⟨k.station, k.tag, k.layer, v⟩

theorem claiming_inj {k k' : Owner} {v v' : VoiceId} : k.claiming v = k'.claiming v' ↔ k = k' ∧ v = v' := by
  obtain ⟨a, b, c⟩ := k
  obtain ⟨a', b', c'⟩ := k'
  simp [Owner.claiming, and_assoc]

theorem starved_inj {k k' : Owner} : k.starved = k'.starved ↔ k = k' := by
  obtain ⟨a, b, c⟩ := k
  obtain ⟨a', b', c'⟩ := k'
  simp [Owner.starved]

namespace PoolView

/-- The slot k, where there is one, takes state x. -/
def setSlot (V : PoolView) (k : Owner) (x : SlotState) : PoolView :=
  { V with slot := fun j => if j = k then (V.slot j).map fun _ => x else V.slot j }

/-- Voice v takes a state and an owner. -/
def setVoice (V : PoolView) (v : VoiceId) (x : VoiceState) (o : Option Owner) : PoolView :=
  { V with
    state := fun w => if w = v then x else V.state w
    owner := fun w => if w = v then o else V.owner w }

/-- Voice v sounds for the slot k. -/
def give (V : PoolView) (v : VoiceId) (k : Owner) : PoolView :=
  (V.setVoice v .sounding (some k)).setSlot k (.voiced v)

/-- The slot k starves. -/
def starveSlot (V : PoolView) (k : Owner) : PoolView :=
  { V.setSlot k .starved with starve := V.starve ++ [k.starved] }

/-- Voice v, draining, is bound to a claim of the slot k. -/
def bind (V : PoolView) (v : VoiceId) (k : Owner) : PoolView :=
  { (V.setVoice v .draining none).setSlot k (.claiming v) with claims := V.claims ++ [k.claiming v] }

/-- The claim of the slot k is gone. -/
def dropClaim (V : PoolView) (k : Owner) : PoolView := { V with claims := V.claims.filter fun c => c.owner ≠ k }

/-- The entry of the slot k on the starve list is gone. -/
def dropStarved (V : PoolView) (k : Owner) : PoolView := { V with starve := V.starve.filter fun e => e ≠ k.starved }

/-- Voice v is bound to no claim. -/
def unbind (V : PoolView) (v : VoiceId) : PoolView := { V with claims := V.claims.filter fun c => c.voice ≠ v }

end PoolView

/-! ### The operations on the view -/

section Operations
variable (s : State) (i : StationId) (tag : Nat) (layer : LayerId) (v : VoiceId)

theorem slotState_setSlot (k : Owner) (x : SlotState) :
    slotState (setSlot s i tag layer x) k =
      if k = ⟨i, tag, layer⟩ then (slotState s k).map fun _ => x else slotState s k := by
  obtain ⟨j, t, l⟩ := k
  simp only [slotState, slotOf_setSlot, Owner.mk.injEq]
  split
  · simp only [Option.map_map]
    rfl
  · rfl

theorem noteLayers_setSlot (x : SlotState) : noteLayers (setSlot s i tag layer x) = noteLayers s := by
  funext j
  simp only [noteLayers, setSlot, State.note]
  rw [updNote_eq, station_updStation]
  split
  · next h =>
    subst h
    simp only [Option.map_map]
    congr 1
    funext n
    simp only [Function.comp]
    split
    · simp only [List.map_map, Prod.mk.injEq, true_and]
      refine List.map_congr_left fun y _ => ?_
      simp only [Function.comp]
      split <;> rfl
    · rfl
  · rfl

theorem view_setSlot (x : SlotState) :
    view (setSlot s i tag layer x) = (view s).setSlot ⟨i, tag, layer⟩ x := by
  unfold view PoolView.setSlot
  congr 1
  · funext k; exact slotState_setSlot s i tag layer k x
  · exact noteLayers_setSlot s i tag layer x

/-- Slots and layers are of the notes alone. -/
theorem slotState_of_stations {s t : State} (h : t.stations = s.stations) : slotState t = slotState s := by
  funext k
  simp only [slotState, slotOf, State.note, State.station, h]

theorem noteLayers_of_stations {s t : State} (h : t.stations = s.stations) : noteLayers t = noteLayers s := by
  funext j
  simp only [noteLayers, State.note, State.station, h]

theorem view_updVoice (f : Voice → Voice) :
    view (s.updVoice v f) = (view s).setVoice v (f (s.voice v)).state (f (s.voice v)).owner := by
  unfold view PoolView.setVoice
  congr 1
  · funext w
    rw [voice_updVoice]
    split <;> rfl
  · funext w
    rw [voice_updVoice]
    split <;> rfl

/-- A voice whose update keeps state and owner leaves the view. -/
theorem view_updVoice_same {f : Voice → Voice} (state : (f (s.voice v)).state = (s.voice v).state)
    (owner : (f (s.voice v)).owner = (s.voice v).owner) : view (s.updVoice v f) = view s := by
  rw [view_updVoice, state, owner]
  ext w x
  · simp only [PoolView.setVoice, view]
    split
    · next h => rw [h]
    · rfl
  · simp only [PoolView.setVoice, view]
    split
    · next h => rw [h]
    · rfl
  all_goals rfl

theorem view_giveVoice : view (giveVoice s v i tag layer) = (view s).give v ⟨i, tag, layer⟩ := by
  rw [giveVoice, view_setSlot, view_updVoice]
  rfl

theorem view_starveSlot : view (Sys2Proof.Machine.starveSlot s i tag layer) = (view s).starveSlot ⟨i, tag, layer⟩ := by
  have h := view_setSlot s i tag layer .starved
  unfold PoolView.starveSlot
  rw [← h]
  rfl

theorem view_starveClaim : view (starveClaim s i tag layer) = (view s).starveSlot ⟨i, tag, layer⟩ :=
  view_starveSlot s i tag layer

theorem view_dropClaim : view (dropClaim s i tag layer) = (view s).dropClaim ⟨i, tag, layer⟩ := by
  unfold view PoolView.dropClaim Sys2Proof.Machine.dropClaim
  congr 1
  refine List.filter_congr fun c _ => ?_
  rw [Bool.eq_iff_iff]
  simp [Claim.owner, Decidable.imp_iff_not_or, or_assoc]

theorem view_dropStarved : view (dropStarved s i tag layer) = (view s).dropStarved ⟨i, tag, layer⟩ := by
  unfold view PoolView.dropStarved Sys2Proof.Machine.dropStarved
  congr 1
  refine List.filter_congr fun e _ => ?_
  rw [Bool.eq_iff_iff]
  rw [bne_iff_ne, decide_eq_true_iff]
  exact Iff.rfl

theorem view_unbind : view (unbind s v) = (view s).unbind v := by
  unfold view PoolView.unbind Sys2Proof.Machine.unbind
  congr 1
  refine List.filter_congr fun c _ => ?_
  rw [Bool.eq_iff_iff]
  simp

/-- A release takes a SOUNDING voice to RELEASING, its owner kept, and no other. -/
theorem view_releaseVoice :
    view (releaseVoice s v) =
      if (s.voice v).state = .sounding then (view s).setVoice v .releasing (s.voice v).owner else view s := by
  unfold releaseVoice
  split
  · next h =>
    rw [view_updVoice, Voice.toRelease, if_pos h]
  · next h =>
    refine view_updVoice_same s v ?_ ?_ <;> rw [Voice.toRelease, if_neg h]

/-- A steal from a RELEASING voice binds the voice. -/
theorem view_stealVoice_releasing (h : (s.voice v).state = .releasing) :
    view (stealVoice s v i tag layer) = (view s).bind v ⟨i, tag, layer⟩ := by
  unfold stealVoice
  simp only [h]
  rw [view_setSlot]
  have := view_updVoice s v Voice.toDrain
  unfold PoolView.bind
  rw [show (view s).setVoice v .draining none = view (s.updVoice v Voice.toDrain) from this.symm]
  rfl

/-- A steal from a SOUNDING voice starves the voice's slot and binds the voice. -/
theorem view_stealVoice_sounding {o : Owner} (h : (s.voice v).state = .sounding)
    (ho : (s.voice v).owner = some o) :
    view (stealVoice s v i tag layer) = ((view s).starveSlot o).bind v ⟨i, tag, layer⟩ := by
  unfold stealVoice
  simp only [h, ho]
  rw [view_setSlot]
  have := view_updVoice (Sys2Proof.Machine.starveSlot s o.station o.tag o.layer) v Voice.toDrain
  rw [view_starveSlot] at this
  unfold PoolView.bind
  rw [show ((view s).starveSlot o).setVoice v .draining none =
    view ((Sys2Proof.Machine.starveSlot s o.station o.tag o.layer).updVoice v Voice.toDrain) from this.symm]
  rfl

end Operations

end Sys2Proof.Machine
end

section
/-! The invariants of the pool's lists as predicates of the view (R81, R82, R90, R93), and what each operation of the
allocator does to them. -/

namespace Sys2Proof.Machine

/-! ### The lists (R81, R90) -/

/-- The view's form of `PoolOk`. -/
structure PoolView.ListsOk (V : PoolView) : Prop where
  freeOnce : V.free.Nodup
  free : ∀ v, v ∈ V.free ↔ V.state v = .free
  claimedOnce : (V.claims.map Claim.voice).Nodup
  claimed : ∀ c ∈ V.claims, V.state c.voice = .draining

theorem listsOk_view (s : State) : (view s).ListsOk ↔ PoolOk s := by
  have claimed : (∀ c ∈ s.claims, (s.voice c.voice).state = .draining)
      ↔ ∀ v ∈ claimedVoices s, (s.voice v).state = .draining := by simp [claimedVoices]
  exact ⟨fun ⟨a, b, c, d⟩ => ⟨a, b, c, claimed.1 d⟩, fun ⟨a, b, c, d⟩ => ⟨a, b, c, claimed.2 d⟩⟩

namespace PoolView.ListsOk
variable {V : PoolView}

/-- The lists are sound wherever voices' states, free list and claim table are the same. -/
theorem congr {W : PoolView} (h : V.ListsOk) (state : W.state = V.state) (free : W.free = V.free)
    (claims : W.claims = V.claims) : W.ListsOk := by
  obtain ⟨a, b, c, d⟩ := h
  exact ⟨free ▸ a, by rw [free, state]; exact b, claims ▸ c, by rw [claims, state]; exact d⟩

theorem setSlot (h : V.ListsOk) (k : Owner) (x : SlotState) : (V.setSlot k x).ListsOk := h.congr rfl rfl rfl

theorem starveSlot (h : V.ListsOk) (k : Owner) : (V.starveSlot k).ListsOk := h.congr rfl rfl rfl

theorem dropStarved (h : V.ListsOk) (k : Owner) : (V.dropStarved k).ListsOk := h.congr rfl rfl rfl

/-- Fewer claims. -/
theorem fewerClaims (h : V.ListsOk) {l : List Claim} (hl : l.Sublist V.claims) :
    ({ V with claims := l } : PoolView).ListsOk :=
  ⟨h.freeOnce, h.free, h.claimedOnce.sublist (hl.map _), fun c hc => h.claimed c (hl.subset hc)⟩

theorem dropClaim (h : V.ListsOk) (k : Owner) : (V.dropClaim k).ListsOk := h.fewerClaims List.filter_sublist

theorem unbind (h : V.ListsOk) (v : VoiceId) : (V.unbind v).ListsOk := h.fewerClaims List.filter_sublist

/-- A voice in use that no claim names, or that stays DRAINING, takes another state in use. -/
theorem setVoice (h : V.ListsOk) {v : VoiceId} {x : VoiceState} (inUse : V.state v ≠ .free) (stays : x ≠ .free)
    (unclaimed : x ≠ .draining → ∀ c ∈ V.claims, c.voice ≠ v) (o : Option Owner) :
    (V.setVoice v x o).ListsOk where
  freeOnce := h.freeOnce
  free w := by
    rw [show (V.setVoice v x o).free = V.free from rfl, h.free w]
    dsimp only [PoolView.setVoice]
    split
    · next e => subst e; exact ⟨fun hf => absurd hf inUse, fun hf => absurd hf stays⟩
    · rfl
  claimedOnce := h.claimedOnce
  claimed c hc := by
    dsimp only [PoolView.setVoice]
    split
    · next e =>
      exact Classical.byContradiction fun hx => unclaimed hx c hc e
    · exact h.claimed c hc

/-- A SOUNDING, RELEASING or FAULTED voice stands in no claim. -/
theorem unclaimed (h : V.ListsOk) {v : VoiceId} (hv : V.state v ≠ .draining) : ∀ c ∈ V.claims, c.voice ≠ v :=
  fun c hc e => hv (e ▸ h.claimed c hc)

theorem unclaimed_unbind (v : VoiceId) : ∀ c ∈ (V.unbind v).claims, c.voice ≠ v := fun c hc => by
  simpa using (List.mem_filter.1 hc).2

/-- A voice in use and not DRAINING is bound to a claim (R88). -/
theorem bind (h : V.ListsOk) {v : VoiceId} (inUse : V.state v ≠ .free) (unbound : V.state v ≠ .draining) (k : Owner) :
    (V.bind v k).ListsOk := by
  have drained := h.setVoice (x := .draining) inUse (fun e => nomatch e) (fun e => absurd rfl e) none
  refine ⟨drained.freeOnce, drained.free, ?_, fun c hc => ?_⟩
  · show ((V.claims ++ [k.claiming v]).map Claim.voice).Nodup
    rw [List.map_append, List.nodup_append]
    refine ⟨h.claimedOnce, by simp, fun w hw u hu e => ?_⟩
    obtain ⟨c, hc, rfl⟩ := List.mem_map.1 hw
    have : c.voice = v := e.trans (by simpa [Owner.claiming] using hu)
    exact h.unclaimed unbound c hc this
  · rcases List.mem_append.1 hc with hc | hc
    · exact drained.claimed c hc
    · rw [List.mem_singleton.1 hc]
      simp [PoolView.bind, PoolView.setSlot, PoolView.setVoice, Owner.claiming]

/-- The voice at the head of the free list is given to a slot (R86). -/
theorem take (h : V.ListsOk) {v : VoiceId} {rest : List VoiceId} (hl : V.free = v :: rest) (k : Owner) :
    (({ V with free := rest } : PoolView).give v k).ListsOk := by
  have once := h.freeOnce
  rw [hl, List.nodup_cons] at once
  have isFree : V.state v = .free := (h.free v).1 (hl ▸ List.mem_cons_self)
  refine ⟨once.2, fun w => ?_, h.claimedOnce, fun c hc => ?_⟩
  · show w ∈ rest ↔ (if w = v then VoiceState.sounding else V.state w) = .free
    split
    · next e => subst e; exact ⟨fun hw => absurd hw once.1, fun hw => nomatch hw⟩
    · next e => rw [← h.free w, hl, List.mem_cons]; exact ⟨.inr, fun hw => hw.resolve_left e⟩
  · show (if c.voice = v then VoiceState.sounding else V.state c.voice) = .draining
    split
    · next e => have := h.claimed c hc; rw [e, isFree] at this; cases this
    · exact h.claimed c hc

/-- A voice in use that no claim names is freed to the tail of the free list (R94, R95). -/
theorem freed (h : V.ListsOk) {v : VoiceId} (inUse : V.state v ≠ .free) (unclaimed : ∀ c ∈ V.claims, c.voice ≠ v) :
    ({ V.setVoice v .free none with free := V.free ++ [v] } : PoolView).ListsOk := by
  have out : v ∉ V.free := fun hv => inUse ((h.free v).1 hv)
  refine ⟨?_, fun w => ?_, h.claimedOnce, fun c hc => ?_⟩
  · exact List.nodup_append.2 ⟨h.freeOnce, by simp, fun a ha b hb e => out (by
      rw [List.mem_singleton] at hb; exact hb ▸ e ▸ ha)⟩
  · show w ∈ V.free ++ [v] ↔ (if w = v then VoiceState.free else V.state w) = .free
    rw [List.mem_append, List.mem_singleton, h.free w]
    split
    · next e => exact ⟨fun _ => rfl, fun _ => .inr e⟩
    · next e => exact ⟨fun hw => hw.resolve_right e, .inl⟩
  · show (if c.voice = v then VoiceState.free else V.state c.voice) = .draining
    rw [if_neg (unclaimed c hc)]
    exact h.claimed c hc

/-- A voice in use that no claim names is given to another slot without passing through the free list (R91, R95). -/
theorem give (h : V.ListsOk) {v : VoiceId} (inUse : V.state v ≠ .free) (unclaimed : ∀ c ∈ V.claims, c.voice ≠ v)
    (k : Owner) : (V.give v k).ListsOk :=
  (h.setVoice (x := .sounding) inUse (fun e => nomatch e) (fun _ => unclaimed) (some k)).setSlot k _

end PoolView.ListsOk

/-! ### The slots with their lists (R62, R80, R90, R93) -/

/-- A slot's state and the pool's items that go with it. -/
structure PoolView.Matches (V : PoolView) (k : Owner) : Prop where
  claiming : ∀ v, k.claiming v ∈ V.claims ↔ V.slot k = some (.claiming v)
  starved : k.starved ∈ V.starve ↔ V.slot k = some .starved
  voiced : ∀ v, (V.state v = .sounding ∧ V.owner v = some k) ↔ V.slot k = some (.voiced v)

/-- Nothing in the pool goes with the slot. -/
structure PoolView.Unlisted (V : PoolView) (k : Owner) : Prop where
  claiming : ∀ v, k.claiming v ∉ V.claims
  starved : k.starved ∉ V.starve
  voiced : ∀ v, V.state v = .sounding → V.owner v ≠ some k

/-- Every slot but those of K goes with its items; nothing in the pool goes with a slot of K. -/
structure PoolView.ListedBut (V : PoolView) (K : Owner → Prop) : Prop where
  layersOnce : ∀ i t l, V.layers i = some (t, l) → l.Nodup
  claimedOnce : (V.claims.map Claim.owner).Nodup
  starvedOnce : V.starve.Nodup
  owned : ∀ v, V.state v = .sounding → V.owner v ≠ none
  others : ∀ k, ¬ K k → V.Matches k
  unlisted : ∀ k, K k → V.Unlisted k

/-- Every slot goes with its items. -/
abbrev PoolView.Listed (V : PoolView) : Prop := V.ListedBut fun _ => False

/-- A slot of a note with at most one slot of a layer is the one its layer names. -/
theorem slotOf_of_mem {s : State} {i : StationId} {n : NoteRecord} {x : Slot} (hn : s.note i = some n)
    (once : (n.slots.map Slot.layer).Nodup) (hx : x ∈ n.slots) : slotOf s i n.tag x.layer = some x := by
  simp only [slotOf, hn, if_true]
  revert once hx
  generalize n.slots = l
  intro once hx
  induction l with
  | nil => cases hx
  | cons a l ih =>
    rw [List.map_cons, List.nodup_cons] at once
    rw [List.find?_cons]
    rcases List.mem_cons.1 hx with rfl | hx
    · simp
    · have : (a.layer == x.layer) = false := by
        rw [beq_eq_false_iff_ne]
        exact fun e => once.1 (e ▸ List.mem_map_of_mem hx)
      rw [this]
      exact ih once.2 hx

/-- A slot that is named is one of its station's note. -/
theorem mem_of_slotOf {s : State} {i : StationId} {tag : Nat} {layer : LayerId} {x : Slot}
    (h : slotOf s i tag layer = some x) : ∃ n, s.note i = some n ∧ n.tag = tag ∧ x ∈ n.slots ∧ x.layer = layer := by
  unfold slotOf at h
  split at h
  · next n hn =>
    split at h
    · next ht => exact ⟨n, hn, ht, List.mem_of_find?_eq_some h, by simpa using List.find?_some h⟩
    · cases h
  · cases h

theorem slotState_eq_some_iff (s : State) (k : Owner) (x : SlotState) :
    slotState s k = some x ↔ ∃ y, slotOf s k.station k.tag k.layer = some y ∧ y.state = x := by
  simp [slotState]

theorem map_owner_eq (l : List Claim) :
    (l.map Claim.owner).Nodup ↔ (l.map fun c => (c.station, c.tag, c.layer)).Nodup := by
  have h : (l.map fun c => (c.station, c.tag, c.layer)) =
      (l.map Claim.owner).map fun o : Owner => (o.station, o.tag, o.layer) := by
    rw [List.map_map]; rfl
  rw [h]
  refine (nodup_map_iff_of_inj fun a b e => ?_).symm
  obtain ⟨a1, a2, a3⟩ := a
  obtain ⟨b1, b2, b3⟩ := b
  simpa using e

/-- The view's form of `SlotsListed`. -/
theorem listed_view (s : State) : (view s).Listed ↔ SlotsListed s := by
  constructor
  · intro h
    have layers : ∀ i n, s.note i = some n → (n.slots.map Slot.layer).Nodup := fun i n hn =>
      h.layersOnce i n.tag _ (by simp [view, noteLayers, hn])
    have matching : ∀ k, (view s).Matches k := fun k => h.others k id
    refine ⟨layers, fun c hc => ?_, fun e he => ?_, ⟨(map_owner_eq _).1 h.claimedOnce, h.starvedOnce⟩,
      fun i n x hn hx => ?_, fun v hv => ?_⟩
    · exact (slotState_eq_some_iff s c.owner _).1 (((matching c.owner).claiming c.voice).1 hc)
    · exact (slotState_eq_some_iff s ⟨e.station, e.tag, e.layer⟩ _).1
        ((matching ⟨e.station, e.tag, e.layer⟩).starved.1 he)
    · have at_ : slotState s ⟨i, n.tag, x.layer⟩ = some x.state :=
        (slotState_eq_some_iff s _ _).2 ⟨x, slotOf_of_mem hn (layers i n hn) hx, rfl⟩
      have m := matching ⟨i, n.tag, x.layer⟩
      exact ⟨fun v hv => (m.claiming v).2 (hv ▸ at_), fun hs => m.starved.2 (hs ▸ at_),
        fun v hv => (m.voiced v).2 (hv ▸ at_)⟩
    · obtain ⟨o, ho⟩ := Option.ne_none_iff_exists'.1 (h.owned v hv)
      obtain ⟨x, hx, state⟩ := (slotState_eq_some_iff s o _).1 (((matching o).voiced v).1 ⟨hv, ho⟩)
      exact ⟨o, x, ho, hx, state⟩
  · rintro ⟨layers, claims, starve, ⟨claimsOnce, starveOnce⟩, slots, sounding⟩
    refine ⟨fun i t l hl => ?_, (map_owner_eq _).2 claimsOnce, starveOnce, fun v hv => ?_, fun k _ => ?_,
      fun k hk => hk.elim⟩
    · obtain ⟨n, hn, e⟩ := Option.map_eq_some_iff.1 (show (s.note i).map _ = some (t, l) from hl)
      rw [Prod.mk.injEq] at e
      exact e.2 ▸ layers i n hn
    · obtain ⟨o, x, ho, -⟩ := sounding v hv
      rw [show (view s).owner v = some o from ho]
      exact fun e => nomatch e
    · have named : ∀ st, slotState s k = some st → ∃ n x, s.note k.station = some n ∧ x ∈ n.slots ∧ x.state = st
          ∧ k = ⟨k.station, n.tag, x.layer⟩ := fun st hst => by
        obtain ⟨x, hx, state⟩ := (slotState_eq_some_iff s k st).1 hst
        obtain ⟨n, hn, ht, hm, hl⟩ := mem_of_slotOf hx
        exact ⟨n, x, hn, hm, state, by rw [ht, hl]⟩
      refine ⟨fun v => ⟨fun h => ?_, fun h => ?_⟩, ⟨fun h => ?_, fun h => ?_⟩, fun v => ⟨fun ⟨hv, ho⟩ => ?_, fun h => ?_⟩⟩
      · exact (slotState_eq_some_iff s k _).2 (claims _ h)
      · obtain ⟨n, x, hn, hx, state, e⟩ := named _ h
        exact e ▸ (slots _ n x hn hx).1 v state
      · exact (slotState_eq_some_iff s k _).2 (starve _ h)
      · obtain ⟨n, x, hn, hx, state, e⟩ := named _ h
        exact e ▸ (slots _ n x hn hx).2.1 state
      · obtain ⟨o, x, ho', hx, state⟩ := sounding v hv
        have : o = k := Option.some.inj (ho'.symm.trans ho)
        exact this ▸ (slotState_eq_some_iff s o _).2 ⟨x, hx, state⟩
      · obtain ⟨n, x, hn, hx, state, e⟩ := named _ h
        exact e ▸ (slots _ n x hn hx).2.2 v state

end Sys2Proof.Machine
end

section
/-! The slots and their lists through the allocator's operations (R62, R80, R90, R93): an operation takes the items of
a slot away, or gives a slot without items its new state and the item that goes with it. -/

namespace Sys2Proof.Machine

namespace PoolView
variable {V W : PoolView} {K L : Owner → Prop} {k k' : Owner} {v : VoiceId}

/-- Of the slot k and the items that go with it, W has what V has. -/
structure Agrees (V W : PoolView) (k : Owner) : Prop where
  claiming : ∀ v, k.claiming v ∈ W.claims ↔ k.claiming v ∈ V.claims
  starved : k.starved ∈ W.starve ↔ k.starved ∈ V.starve
  voiced : ∀ v, (W.state v = .sounding ∧ W.owner v = some k) ↔ (V.state v = .sounding ∧ V.owner v = some k)
  slot : W.slot k = V.slot k

theorem Agrees.matches (h : Agrees V W k) (hm : V.Matches k) : W.Matches k :=
  ⟨fun v => by rw [h.claiming, h.slot]; exact hm.claiming v, by rw [h.starved, h.slot]; exact hm.starved,
    fun v => by rw [h.voiced, h.slot]; exact hm.voiced v⟩

theorem Agrees.unlisted (h : Agrees V W k) (hu : V.Unlisted k) : W.Unlisted k :=
  ⟨fun v => by rw [h.claiming]; exact hu.claiming v, by rw [h.starved]; exact hu.starved,
    fun v hs ho => by
      obtain ⟨hs', ho'⟩ := (h.voiced v).1 ⟨hs, ho⟩
      exact hu.voiced v hs' ho'⟩

/-- A slot that is absent or DORMANT goes with no item. -/
theorem Matches.unlisted (h : V.Matches k) (hk : V.slot k = none ∨ V.slot k = some .dormant) : V.Unlisted k := by
  refine ⟨fun v hc => ?_, fun hs => ?_, fun v hs ho => ?_⟩
  · rcases hk with hk | hk <;> rw [(h.claiming v).1 hc] at hk <;> cases hk
  · rcases hk with hk | hk <;> rw [h.starved.1 hs] at hk <;> cases hk
  · rcases hk with hk | hk <;> rw [(h.voiced v).1 ⟨hs, ho⟩] at hk <;> cases hk

theorem Unlisted.matches (h : V.Unlisted k) (hk : V.slot k = none ∨ V.slot k = some .dormant) : V.Matches k := by
  have none_ : ∀ x, x ≠ SlotState.dormant → V.slot k ≠ some x := fun x hx e => by
    rcases hk with hk | hk
    · rw [hk] at e; cases e
    · rw [hk] at e; cases e; exact hx rfl
  exact ⟨fun v => ⟨fun hc => absurd hc (h.claiming v), fun e => absurd e (none_ _ fun e => nomatch e)⟩,
    ⟨fun hs => absurd hs h.starved, fun e => absurd e (none_ _ fun e => nomatch e)⟩,
    fun v => ⟨fun ⟨hs, ho⟩ => absurd ho (h.voiced v hs), fun e => absurd e (none_ _ fun e => nomatch e)⟩⟩

/-- Fewer slots go with their items: those whose items are all gone. -/
theorem ListedBut.with_ (h : V.ListedBut K) (hk : V.slot k = none ∨ V.slot k = some .dormant) :
    V.ListedBut fun j => K j ∨ j = k where
  layersOnce := h.layersOnce
  claimedOnce := h.claimedOnce
  starvedOnce := h.starvedOnce
  owned := h.owned
  others := fun j hj => h.others j fun e => hj (.inl e)
  unlisted := fun j hj => by
    by_cases e : K j
    · exact h.unlisted j e
    · obtain rfl := hj.resolve_left e
      exact (h.others j e).unlisted hk

theorem ListedBut.congr (h : V.ListedBut K) (e : ∀ j, L j ↔ K j) : V.ListedBut L := by
  rwa [show L = K from funext fun j => propext (e j)]

/-- The items of the slot k are gone, and nothing else. -/
theorem ListedBut.unlist (h : V.ListedBut K) (layers : W.layers = V.layers) (claims : W.claims.Sublist V.claims)
    (starve : W.starve.Sublist V.starve) (owned : ∀ v, W.state v = .sounding → W.owner v ≠ none)
    (agrees : ∀ j, j ≠ k → Agrees V W j) (gone : W.Unlisted k) : W.ListedBut fun j => K j ∨ j = k where
  layersOnce := layers ▸ h.layersOnce
  claimedOnce := h.claimedOnce.sublist (claims.map _)
  starvedOnce := h.starvedOnce.sublist starve
  owned := owned
  others := fun j hj => (agrees j fun e => hj (.inr e)).matches (h.others j fun e => hj (.inl e))
  unlisted := fun j hj => by
    by_cases e : j = k
    · exact e ▸ gone
    · exact (agrees j e).unlisted (h.unlisted j (hj.resolve_right e))

/-- A slot without items takes a state with the item that goes with it, and nothing else changes. -/
theorem ListedBut.list (h : V.ListedBut fun j => K j ∨ j = k) (fresh : ¬ K k) (layers : W.layers = V.layers)
    (claims : (W.claims.map Claim.owner).Nodup) (starve : W.starve.Nodup)
    (owned : ∀ v, W.state v = .sounding → W.owner v ≠ none) (agrees : ∀ j, j ≠ k → Agrees V W j)
    (now : W.Matches k) : W.ListedBut K where
  layersOnce := layers ▸ h.layersOnce
  claimedOnce := claims
  starvedOnce := starve
  owned := owned
  others := fun j hj => by
    by_cases e : j = k
    · exact e ▸ now
    · exact (agrees j e).matches (h.others j fun hk => hk.elim hj e)
  unlisted := fun j hj => (agrees j fun e => fresh (e ▸ hj)).unlisted (h.unlisted j (.inl hj))

/-! ### What takes a slot's items away -/

/-- The claim of a CLAIMING slot leaves the claim table. -/
theorem ListedBut.dropClaim (h : V.ListedBut K) (hk : ¬ K k) (slot : V.slot k = some (.claiming v)) :
    (V.dropClaim k).ListedBut fun j => K j ∨ j = k := by
  have m := h.others k hk
  have mem : ∀ c, c ∈ (V.dropClaim k).claims ↔ c ∈ V.claims ∧ c.owner ≠ k := fun c => by
    simp [PoolView.dropClaim, List.mem_filter]
  refine h.unlist rfl List.filter_sublist (List.Sublist.refl _) h.owned (fun j hj => ⟨fun w => ?_, Iff.rfl, fun _ => Iff.rfl, rfl⟩)
    ⟨fun w hc => ((mem _).1 hc).2 rfl, fun hs => ?_, fun w hs ho => ?_⟩
  · rw [mem]
    exact ⟨fun hc => hc.1, fun hc => ⟨hc, hj⟩⟩
  · have := m.starved.1 hs
    rw [slot] at this
    cases this
  · have := (m.voiced w).1 ⟨hs, ho⟩
    rw [slot] at this
    cases this

/-- The entry of a STARVED slot leaves the starve list. -/
theorem ListedBut.dropStarved (h : V.ListedBut K) (hk : ¬ K k) (slot : V.slot k = some .starved) :
    (V.dropStarved k).ListedBut fun j => K j ∨ j = k := by
  have m := h.others k hk
  have mem : ∀ e, e ∈ (V.dropStarved k).starve ↔ e ∈ V.starve ∧ e ≠ k.starved := fun e => by
    simp [PoolView.dropStarved, List.mem_filter]
  refine h.unlist rfl (List.Sublist.refl _) List.filter_sublist h.owned (fun j hj => ⟨fun _ => Iff.rfl, ?_, fun _ => Iff.rfl, rfl⟩)
    ⟨fun w hc => ?_, fun hs => ((mem _).1 hs).2 rfl, fun w hs ho => ?_⟩
  · rw [mem]
    exact ⟨fun hc => hc.1, fun hc => ⟨hc, fun e => hj (starved_inj.1 e)⟩⟩
  · have := (m.claiming w).1 hc
    rw [slot] at this
    cases this
  · have := (m.voiced w).1 ⟨hs, ho⟩
    rw [slot] at this
    cases this

/-- The SOUNDING voice of a VOICED slot takes another state. -/
theorem ListedBut.silence (h : V.ListedBut K) (hk : ¬ K k) (slot : V.slot k = some (.voiced v)) {x : VoiceState}
    (hx : x ≠ .sounding) (o : Option Owner) : (V.setVoice v x o).ListedBut fun j => K j ∨ j = k := by
  have m := h.others k hk
  obtain ⟨sounds, owner⟩ := (m.voiced v).2 slot
  have voiced : ∀ w j, ((V.setVoice v x o).state w = .sounding ∧ (V.setVoice v x o).owner w = some j)
      ↔ w ≠ v ∧ V.state w = .sounding ∧ V.owner w = some j := fun w j => by
    dsimp only [setVoice]
    split
    · next e => exact ⟨fun hs => absurd hs.1 hx, fun hs => absurd e hs.1⟩
    · next e => exact ⟨fun hs => ⟨e, hs⟩, fun hs => hs.2⟩
  refine h.unlist rfl (List.Sublist.refl _) (List.Sublist.refl _) (fun w hs => ?_)
    (fun j hj => ⟨fun _ => Iff.rfl, Iff.rfl, fun w => ?_, rfl⟩) ⟨fun w hc => ?_, fun hs => ?_, fun w hs ho => ?_⟩
  · dsimp only [setVoice] at hs ⊢
    split at hs
    · exact absurd hs hx
    · next e => rw [if_neg e]; exact h.owned w hs
  · rw [voiced]
    refine ⟨fun hs => hs.2, fun hs => ⟨fun e => ?_, hs⟩⟩
    rw [e, owner] at hs
    exact hj (Option.some.inj hs.2).symm
  · have := (m.claiming w).1 hc
    rw [slot] at this
    cases this
  · have := m.starved.1 hs
    rw [slot] at this
    cases this
  · obtain ⟨hw, hs', ho'⟩ := (voiced w k).1 ⟨hs, ho⟩
    have := (m.voiced w).1 ⟨hs', ho'⟩
    rw [slot] at this
    cases this
    exact hw rfl

/-! ### What leaves every slot with its items -/

/-- What no slot goes with may change: a voice that is not SOUNDING, and the free list. -/
theorem ListedBut.setVoice (h : V.ListedBut K) {x : VoiceState} (was : V.state v ≠ .sounding) (hx : x ≠ .sounding)
    (o : Option Owner) : (V.setVoice v x o).ListedBut K := by
  have voiced : ∀ w j, ((V.setVoice v x o).state w = .sounding ∧ (V.setVoice v x o).owner w = some j)
      ↔ V.state w = .sounding ∧ V.owner w = some j := fun w j => by
    dsimp only [PoolView.setVoice]
    split
    · next e => subst e; exact ⟨fun hs => absurd hs.1 hx, fun hs => absurd hs.1 was⟩
    · exact Iff.rfl
  have agrees : ∀ j, Agrees V (V.setVoice v x o) j := fun j => ⟨fun _ => Iff.rfl, Iff.rfl, fun w => voiced w j, rfl⟩
  refine ⟨h.layersOnce, h.claimedOnce, h.starvedOnce, fun w hs => ?_, fun j hj => (agrees j).matches (h.others j hj),
    fun j hj => (agrees j).unlisted (h.unlisted j hj)⟩
  dsimp only [PoolView.setVoice] at hs ⊢
  split at hs
  · exact absurd hs hx
  · next e => rw [if_neg e]; exact h.owned w hs

theorem ListedBut.setFree (h : V.ListedBut K) (l : List VoiceId) : ({ V with free := l } : PoolView).ListedBut K := by
  obtain ⟨a, b, c, d, others, unlisted⟩ := h
  exact ⟨a, b, c, d, fun j hj => ⟨(others j hj).claiming, (others j hj).starved, (others j hj).voiced⟩,
    fun j hj => ⟨(unlisted j hj).claiming, (unlisted j hj).starved, (unlisted j hj).voiced⟩⟩

/-- A voice bound to no claim is unbound with nothing changed. -/
theorem unbind_of_unclaimed (h : ∀ c ∈ V.claims, c.voice ≠ v) : V.unbind v = V := by
  unfold PoolView.unbind
  rw [List.filter_eq_self.2 fun c hc => by simpa using h c hc]

/-- A voice bound to a claim is unbound by the claim's slot losing it. -/
theorem unbind_of_claimed (lists : V.ListsOk) (h : V.ListedBut K) {c : Claim} (hc : c ∈ V.claims) :
    V.unbind c.voice = V.dropClaim c.owner := by
  unfold PoolView.unbind PoolView.dropClaim
  congr 1
  refine List.filter_congr fun d hd => ?_
  have : d.voice = c.voice ↔ d.owner = c.owner :=
    ⟨fun e => congrArg Claim.owner (eq_of_nodup_map lists.claimedOnce hd hc e),
      fun e => congrArg Claim.voice (eq_of_nodup_map h.claimedOnce hd hc e)⟩
  simp [this]

/-! ### What gives a slot without items its state -/

theorem slot_setSlot (V : PoolView) (k j : Owner) (x : SlotState) (hj : j ≠ k) : (V.setSlot k x).slot j = V.slot j :=
  if_neg hj

theorem slot_setSlot_self {V : PoolView} {k : Owner} (x : SlotState) (hk : V.slot k ≠ none) :
    (V.setSlot k x).slot k = some x := by
  obtain ⟨y, hy⟩ := Option.ne_none_iff_exists'.1 hk
  simp [PoolView.setSlot, hy]

/-- A slot without items becomes DORMANT. -/
theorem ListedBut.dormant (h : V.ListedBut fun j => K j ∨ j = k) (fresh : ¬ K k) (slot : V.slot k ≠ none) :
    (V.setSlot k .dormant).ListedBut K := by
  refine h.list fresh rfl h.claimedOnce h.starvedOnce h.owned
    (fun j hj => ⟨fun _ => Iff.rfl, Iff.rfl, fun _ => Iff.rfl, slot_setSlot V k j _ hj⟩) ?_
  have gone := h.unlisted k (.inr rfl)
  exact Unlisted.matches ⟨gone.claiming, gone.starved, gone.voiced⟩ (.inr (slot_setSlot_self _ slot))

/-- A slot without items starves. -/
theorem ListedBut.starveSlot (h : V.ListedBut fun j => K j ∨ j = k) (fresh : ¬ K k) (slot : V.slot k ≠ none) :
    (V.starveSlot k).ListedBut K := by
  have gone := h.unlisted k (.inr rfl)
  have at_ : (V.starveSlot k).slot k = some .starved := slot_setSlot_self _ slot
  have mem : ∀ e, e ∈ (V.starveSlot k).starve ↔ e ∈ V.starve ∨ e = k.starved := fun e => by
    simp [PoolView.starveSlot]
  refine h.list fresh rfl h.claimedOnce ?_ h.owned
    (fun j hj => ⟨fun _ => Iff.rfl, ?_, fun _ => Iff.rfl, slot_setSlot V k j _ hj⟩)
    ⟨fun w => ⟨fun hc => absurd hc (gone.claiming w), fun e => ?_⟩, ⟨fun _ => at_, fun _ => (mem _).2 (.inr rfl)⟩,
      fun w => ⟨fun hs => absurd hs.2 (gone.voiced w hs.1), fun e => ?_⟩⟩
  · exact List.nodup_append.2 ⟨h.starvedOnce, by simp, fun a ha b hb e => gone.starved (by
      rw [List.mem_singleton] at hb; exact hb ▸ e ▸ ha)⟩
  · rw [mem]
    exact ⟨fun hs => hs.resolve_right fun e => hj (starved_inj.1 e), .inl⟩
  · rw [at_] at e; cases e
  · rw [at_] at e; cases e

/-- A slot without items gets a voice that was not SOUNDING. -/
theorem ListedBut.give (h : V.ListedBut fun j => K j ∨ j = k) (fresh : ¬ K k) (slot : V.slot k ≠ none)
    (was : V.state v ≠ .sounding) : (V.give v k).ListedBut K := by
  have gone := h.unlisted k (.inr rfl)
  have at_ : (V.give v k).slot k = some (.voiced v) :=
    slot_setSlot_self (V := V.setVoice v .sounding (some k)) _ slot
  have voiced : ∀ w j, ((V.give v k).state w = .sounding ∧ (V.give v k).owner w = some j)
      ↔ (w = v ∧ k = j) ∨ (V.state w = .sounding ∧ V.owner w = some j) := fun w j => by
    dsimp only [PoolView.give, PoolView.setSlot, PoolView.setVoice]
    split
    · next e =>
      subst e
      exact ⟨fun hs => .inl ⟨rfl, Option.some.inj hs.2⟩, fun hs => hs.elim (fun hs => ⟨rfl, hs.2 ▸ rfl⟩)
        fun hs => absurd hs.1 was⟩
    · next e => exact ⟨.inr, fun hs => hs.resolve_left fun hs => e hs.1⟩
  refine h.list fresh rfl h.claimedOnce h.starvedOnce (fun w hs => ?_)
    (fun j hj => ⟨fun _ => Iff.rfl, Iff.rfl, fun w => ?_, slot_setSlot _ k j _ hj⟩)
    ⟨fun w => ⟨fun hc => absurd hc (gone.claiming w), fun e => ?_⟩, ⟨fun hs => absurd hs gone.starved, fun e => ?_⟩,
      fun w => ?_⟩
  · dsimp only [PoolView.give, PoolView.setSlot, PoolView.setVoice] at hs ⊢
    split
    · exact fun e => nomatch e
    · next e => rw [if_neg e] at hs; exact h.owned w hs
  · rw [voiced]
    exact ⟨fun hs => hs.resolve_left fun hs => hj hs.2.symm, .inr⟩
  · rw [at_] at e; cases e
  · rw [at_] at e; cases e
  · rw [voiced, at_]
    refine ⟨fun hs => ?_, fun e => by cases e; exact .inl ⟨rfl, rfl⟩⟩
    rcases hs with ⟨rfl, -⟩ | hs
    · rfl
    · exact absurd hs.2 (gone.voiced w hs.1)

/-- A slot without items claims a voice that was not SOUNDING. -/
theorem ListedBut.bind (h : V.ListedBut fun j => K j ∨ j = k) (fresh : ¬ K k) (slot : V.slot k ≠ none)
    (was : V.state v ≠ .sounding) : (V.bind v k).ListedBut K := by
  have drained := h.setVoice (x := .draining) was (fun e => nomatch e) none
  have gone := drained.unlisted k (.inr rfl)
  have at_ : (V.bind v k).slot k = some (.claiming v) :=
    slot_setSlot_self (V := V.setVoice v .draining none) _ slot
  have mem : ∀ c, c ∈ (V.bind v k).claims ↔ c ∈ V.claims ∨ c = k.claiming v := fun c => by
    simp [PoolView.bind]
  refine drained.list fresh rfl ?_ drained.starvedOnce drained.owned
    (fun j hj => ⟨fun w => ?_, Iff.rfl, fun _ => Iff.rfl, slot_setSlot _ k j _ hj⟩)
    ⟨fun w => ?_, ⟨fun hs => absurd hs gone.starved, fun e => ?_⟩,
      fun w => ⟨fun hs => absurd hs.2 (gone.voiced w hs.1), fun e => ?_⟩⟩
  · show ((V.claims ++ [k.claiming v]).map Claim.owner).Nodup
    rw [List.map_append, List.nodup_append]
    refine ⟨h.claimedOnce, by simp, fun a ha b hb e => ?_⟩
    obtain ⟨c, hc, rfl⟩ := List.mem_map.1 ha
    have owner : c.owner = k := e.trans (by simpa [Owner.claiming, Claim.owner] using hb)
    exact gone.claiming c.voice (owner ▸ hc)
  · rw [mem]
    exact ⟨fun hc => hc.resolve_right fun e => hj (claiming_inj.1 e).1, .inl⟩
  · rw [mem, at_]
    refine ⟨fun hc => ?_, fun e => by cases e; exact .inr rfl⟩
    rcases hc with hc | hc
    · exact absurd hc (gone.claiming w)
    · rw [(claiming_inj.1 hc).2]
  · rw [at_] at e; cases e
  · rw [at_] at e; cases e

/-! ### A station's note gone, and a note begun -/

/-- Station i's note with its slots is gone. -/
def endNote (V : PoolView) (i : StationId) : PoolView :=
  { V with
    slot := fun k => if k.station = i then none else V.slot k
    layers := fun j => if j = i then none else V.layers j }

/-- Station i has a note with this tag and a DORMANT slot of each of these layers. -/
def beginNote (V : PoolView) (i : StationId) (tag : Nat) (l : List LayerId) : PoolView :=
  { V with
    slot := fun k =>
      if k.station = i then (if k.tag = tag ∧ k.layer ∈ l then some .dormant else none) else V.slot k
    layers := fun j => if j = i then some (tag, l) else V.layers j }

/-- A note whose slots have no items ends. -/
theorem ListedBut.endNote {i : StationId} (h : V.ListedBut K)
    (gone : ∀ j, j.station = i → K j ∨ V.slot j = none ∨ V.slot j = some .dormant) (only : ∀ j, K j → j.station = i) :
    (V.endNote i).Listed := by
  refine ⟨fun j t l hl => ?_, h.claimedOnce, h.starvedOnce, h.owned, fun j _ => ?_, fun j hj => hj.elim⟩
  · dsimp only [PoolView.endNote] at hl
    split at hl
    · cases hl
    · exact h.layersOnce j t l hl
  · by_cases e : j.station = i
    · have unlisted : V.Unlisted j := by
        by_cases hk : K j
        · exact h.unlisted j hk
        · exact (h.others j hk).unlisted ((gone j e).resolve_left hk)
      exact Unlisted.matches ⟨unlisted.claiming, unlisted.starved, unlisted.voiced⟩ (.inl (if_pos e))
    · have agrees : Agrees V (V.endNote i) j := ⟨fun _ => Iff.rfl, Iff.rfl, fun _ => Iff.rfl, if_neg e⟩
      exact agrees.matches (h.others j fun hk => e (only j hk))

/-- A note begins, its slots DORMANT, at a station without slots. -/
theorem ListedBut.beginNote {i : StationId} (h : V.Listed) (silent : ∀ j, j.station = i → V.slot j = none) (tag : Nat)
    {l : List LayerId} (once : l.Nodup) : (V.beginNote i tag l).Listed := by
  refine ⟨fun j t l' hl => ?_, h.claimedOnce, h.starvedOnce, h.owned, fun j _ => ?_, fun j hj => hj.elim⟩
  · dsimp only [PoolView.beginNote] at hl
    split at hl
    · cases hl; exact once
    · exact h.layersOnce j t l' hl
  · by_cases e : j.station = i
    · have unlisted := (h.others j id).unlisted (.inl (silent j e))
      refine Unlisted.matches ⟨unlisted.claiming, unlisted.starved, unlisted.voiced⟩ ?_
      dsimp only [PoolView.beginNote]
      rw [if_pos e]
      split
      · exact .inr rfl
      · exact .inl rfl
    · have agrees : Agrees V (V.beginNote i tag l) j := ⟨fun _ => Iff.rfl, Iff.rfl, fun _ => Iff.rfl, if_neg e⟩
      exact agrees.matches (h.others j id)

end PoolView

end Sys2Proof.Machine
end

section
/-! The queue, the power-on values and the two resets (O1 to O4). -/

namespace Sys2Proof.Machine

/-! ### The queue -/

theorem step_of_pending {s : State} {c : Instr} {rest : List Instr} (h : s.pending = c :: rest) :
    step s = exec c { s with pending := rest } := by
  simp only [step, h]

theorem step_of_idle {s : State} (h : s.pending = []) : step s = .next (passBitTime s) := by
  simp only [step, h]

theorem passBitTime_within {s : State} (h : s.audio.position < 255) :
    passBitTime s = { s with
      audio := { s.audio with position := s.audio.position + 1 }
      stations := s.stations.map (Station.passPeriods 2) } := if_pos h

theorem passBitTime_last {s : State} (h : 255 ≤ s.audio.position) : passBitTime s = s :=
  if_neg (Nat.not_lt.2 h)

/-- Settles O1: the queue's two cases, and the frame's last bit time apart. -/
theorem stepTakesTheFrontCommand : Obligations.StepTakesTheFrontCommand := by
  unfold Obligations.StepTakesTheFrontCommand
  refine ⟨fun c s => step_of_pending rfl, fun s idle => ⟨fun within => ?_, fun last => ?_⟩⟩
  · rw [step_of_idle idle, passBitTime_within within]
    rfl
  · rw [step_of_idle idle, passBitTime_last last]

/-! ### The power-on values -/

theorem station_reset (i : StationId) : State.reset.station i = Station.reset := by
  simp [State.station, State.reset]

theorem voice_reset (v : VoiceId) : State.reset.voice v = Voice.free := by
  simp [State.voice, State.reset]

/-- With every voice FREE no station has a count. -/
theorem stationCount_of_free {s : State} (h : ∀ v, s.voice v = Voice.free) (i : StationId) :
    stationCount s i = 0 := by
  rw [stationCount, List.countP_eq_zero]
  intro v _
  simp [countsTo, h v, Voice.free]

/-- Settles O2: block by block, each at the value its own reset gives it. -/
theorem resetHoldsThePowerOnValues : Obligations.ResetHoldsThePowerOnValues := by
  unfold Obligations.ResetHoldsThePowerOnValues
  refine ⟨⟨rfl, rfl, rfl⟩, fun i => ?stations, fun c => ?charts, ⟨rfl, rfl⟩, fun n => ?templates,
    fun w => ?waves, fun v => ?voices, ?freeList, ⟨rfl, rfl, stationCount_of_free voice_reset⟩,
    fun i => ?clips, rfl, rfl⟩
  case stations =>
    rw [station_reset]
    refine ⟨rfl, rfl, fun k => ?_, rfl, rfl, rfl, rfl, rfl, rfl, rfl⟩
    simp [Station.reset]
  case charts => simp [State.reset, ChartStore.reset]
  case templates => simp [State.reset]
  case waves => simp [State.reset]
  case voices => rw [voice_reset]; exact ⟨rfl, rfl, rfl, rfl, rfl, rfl, rfl, rfl, rfl, rfl, rfl⟩
  case freeList => rfl
  case clips => simp [State.reset, Audio.reset]

theorem sampleBits_nil (a : Nat) : Memory.sampleBits [] a = 0 := by
  simp [Memory.sampleBits, Memory.readCell, Memory.unlisted]

theorem parityFailed_nil (a : Nat) : Memory.parityFailed [] a = false := by
  simp [Memory.parityFailed, Memory.readCell, Memory.unlisted]

/-- Settles O3: the cleared memory lists no cell, and a cell that is not listed reads 0. -/
theorem powerOnStartsAndEndsTheClear : Obligations.PowerOnStartsAndEndsTheClear := by
  unfold Obligations.PowerOnStartsAndEndsTheClear
  refine ⟨fun s => rfl, fun s running => ⟨[], ?_, fun a =>
    ⟨sampleBits_nil a, parityFailed_nil a⟩⟩⟩
  exact if_pos running

/-! ### The pin reset -/

theorem station_pinResetState (s : State) (i : StationId) : (pinResetState s).station i = Station.reset :=
  station_reset i

theorem voice_pinResetState (s : State) (v : VoiceId) : (pinResetState s).voice v = Voice.free :=
  voice_reset v

theorem lists_abandon (x : ChartStore) : x.abandon.lists = x.lists := by
  unfold ChartStore.abandon
  split <;> rfl

theorem edit_abandon (x : ChartStore) : x.abandon.edit = none := by
  unfold ChartStore.abandon
  split
  · rfl
  · next idle => exact idle

/-- Settles O4: an abandoned edit leaves sound counts, with no edit, and so each list's own length. -/
theorem pinResetKeepsTheStores : Obligations.PinResetKeepsTheStores := by
  unfold Obligations.PinResetKeepsTheStores
  refine ⟨fun s => ⟨pinResetState s, rfl, ⟨rfl, rfl, rfl, rfl, rfl, rfl⟩, ⟨rfl, rfl, rfl, rfl⟩,
    station_pinResetState s, voice_pinResetState s, ⟨rfl, rfl, rfl⟩, ⟨rfl, rfl⟩,
    ⟨lists_abandon s.charts, edit_abandon s.charts⟩, fun sound => ?counts⟩, fun s asserted => if_pos asserted⟩
  have kept : s.charts.abandon.ok := ok_abandon sound
  have lengths (c : ChartId) : s.charts.abandon.lengths[c] = s.charts.lists[c].length := by
    rw [ChartStore.length_eq_of_idle kept (edit_abandon _), lists_abandon]
  refine ⟨lengths, ?_⟩
  calc s.charts.abandon.freeCells + overCharts (fun c => s.charts.lists[c].length)
      = s.charts.abandon.freeCells + overCharts (fun c => s.charts.abandon.lengths[c]) := by simp only [lengths]
    _ = 512 := kept.1

end Sys2Proof.Machine
end

section
/-! The control port's own events (O5, O6). -/

namespace Sys2Proof.Machine

/-! ### Chip select -/

section ChipSelect

variable {s : State}

theorem exec_transactionBegin_of_held (high : s.port.csLow = false)
    (held : s.rstAsserted = true ∨ s.port.awaitHigh = true) :
    exec .transactionBegin s = .next { s with port := { s.port with csLow := true } } := by
  have test : (s.rstAsserted || s.port.awaitHigh) = true := by simpa using held
  simp [exec, execTransactionBegin, high, test]

theorem exec_transactionBegin_of_ready (high : s.port.csLow = false) (released : s.rstAsserted = false)
    (seen : s.port.awaitHigh = false) :
    exec .transactionBegin s = .next { s with port := ⟨.command, true, false⟩ } := by
  simp [exec, execTransactionBegin, high, released, seen]

theorem exec_transactionEnd_of_low (low : s.port.csLow = true) :
    exec .transactionEnd s = .next { abortPort s with port := ⟨.idle, false, false⟩ } := if_pos low

theorem abortPort_parameters {cmd : Byte} {taken : List Byte} {n : Nat}
    (h : s.port.phase = .parameters cmd taken n) :
    abortPort s = report s .portAbort none none none (BitVec.ofNat 32 (cmd.toNat + 256 * taken.length)) := by
  rw [abortPort, h, Nat.mul_comm]

theorem abortPort_other (h : ∀ cmd taken n, s.port.phase ≠ .parameters cmd taken n) : abortPort s = s := by
  unfold abortPort
  split
  · next cmd taken n phase => exact absurd phase (h cmd taken n)
  all_goals rfl

end ChipSelect

/-- Settles O5. -/
theorem chipSelectEdges : Obligations.ChipSelectEdges := by
  unfold Obligations.ChipSelectEdges
  refine ⟨fun s high released seen => exec_transactionBegin_of_ready high released seen,
    fun s high held => exec_transactionBegin_of_held high held, fun s cmd taken n low phase => ?_,
    fun s low other => ?_⟩
  · rw [exec_transactionEnd_of_low low, abortPort_parameters phase]
    rfl
  · rw [exec_transactionEnd_of_low low, abortPort_other other]

/-! ### Bytes taken -/

section Bytes

variable {s : State} {b : Byte}

theorem takeByte_command {n : Nat} (phase : s.port.phase = .command) (ready : s.clearRunning = false)
    (known : paramCount b = some n) (some_params : 0 < n) : takeByte s b = some (.parameters b [] n) := by
  have more : n ≠ 0 := by omega
  simp [takeByte, phase, ready, known, more]

theorem takeByte_parameters {cmd : Byte} {taken : List Byte} {n : Nat}
    (phase : s.port.phase = .parameters cmd taken n) (more : taken.length + 1 < expectedAfter cmd taken n b) :
    takeByte s b = some (.parameters cmd (taken ++ [b]) (expectedAfter cmd taken n b)) := by
  simp only [takeByte, phase, more, if_true]

theorem exec_parameterByte_of_take {p : PortPhase} (h : takeByte s b = some p) :
    exec (.parameterByte b) s = .next { s with port := { s.port with phase := p } } := by
  simp only [exec, execParameterByte, h, setPhase]

theorem expectedAfter_eq {cmd : Byte} {taken : List Byte} (n : Nat) (h : cmd = 0x31 → taken.length ≠ 2) :
    expectedAfter cmd taken n b = n := if_neg fun ⟨write, count⟩ => h write count

theorem expectedAfter_count {taken : List Byte} (n : Nat) (h : taken.length = 2) :
    expectedAfter 0x31 taken n b = 3 + 2 * Instr.samplesFor b := if_pos ⟨rfl, h⟩

theorem samplesFor_eq (one : 1 ≤ b.toNat) (top : b.toNat ≤ 64) : Instr.samplesFor b = b.toNat :=
  if_neg (by omega)

end Bytes

/-! ### Bits on the wire -/

theorem misoLevel_eq (p : Port) (n : Nat) {j : Nat} (h : j < 8) :
    p.misoLevel (8 * n + j) = (p.misoByte n).map fun b => b.getLsbD (7 - j) := by
  have byte : (8 * n + j) / 8 = n := by omega
  have bit : (8 * n + j) % 8 = j := by omega
  simp [Port.misoLevel, byte, bit, BitVec.getMsbD, h]

/-- The byte of eight levels, by its bits. -/
theorem getLsbD_byteOfLevels (a b c d e f g h : Bool) {j : Nat} (hj : j < 8) :
    (byteOfLevels [a, b, c, d, e, f, g, h]).getLsbD (7 - j) = [a, b, c, d, e, f, g, h].getD j false := by
  revert a b c d e f g h
  have places : j = 0 ∨ j = 1 ∨ j = 2 ∨ j = 3 ∨ j = 4 ∨ j = 5 ∨ j = 6 ∨ j = 7 := by omega
  rcases places with rfl | rfl | rfl | rfl | rfl | rfl | rfl | rfl <;> decide

theorem exists_of_length_eight {α : Type} {l : List α} (h : l.length = 8) :
    ∃ a b c d e f g k, l = [a, b, c, d, e, f, g, k] := by
  match l, h with
  | [a, b, c, d, e, f, g, k], _ => exact ⟨a, b, c, d, e, f, g, k, rfl⟩

theorem misoByte_of_response {p : Port} {code : ResultCode} {r : List Byte} (h : p.phase = .response code r)
    (n : Nat) : p.misoByte n = some ((code.value :: r).getD n 0xFF) := by
  simp only [Port.misoByte, Port.miso, h, Option.map_some]

theorem misoByte_of_ignored {p : Port} {code : ResultCode} (h : p.phase = .ignore (some code)) (n : Nat) :
    p.misoByte n = some (if n = 0 then code.value else 0xFF) := by
  cases n <;> simp [Port.misoByte, Port.miso, h]

/-- Settles O6. -/
theorem portTakesItsBytes : Obligations.PortTakesItsBytes := by
  unfold Obligations.PortTakesItsBytes
  refine ⟨fun s b n phase ready known params =>
      exec_parameterByte_of_take (takeByte_command phase ready known params),
    fun s b cmd taken n phase more notCount => ?parameter, fun s b taken n phase count one top => ?count,
    fun s b phase ready unknown => ?unknown, fun s b phase running => ?notReady, rfl,
    fun s code r phase => ⟨rfl, ?responseEnd⟩,
    fun p n => ⟨fun phase => ?idle, fun phase => ?command, fun cmd taken m phase => ?parameters,
      fun code r phase => misoByte_of_response phase n, fun phase => ?ignore,
      fun code phase => misoByte_of_ignored phase n, fun j hj => misoLevel_eq p n hj⟩,
    fun levels eight j hj => ?mosi⟩
  case parameter =>
    have same : expectedAfter cmd taken n b = n := expectedAfter_eq n notCount
    rw [exec_parameterByte_of_take (takeByte_parameters phase (same.symm ▸ more)), same]
  case count =>
    have expected : expectedAfter 0x31 taken n b = 3 + 2 * b.toNat := by
      rw [expectedAfter_count n count, samplesFor_eq one top]
    rw [exec_parameterByte_of_take (takeByte_parameters phase (by rw [expected]; omega)), expected]
  case unknown =>
    refine ⟨.ignore (some .unknown), ?_, rfl, rfl⟩
    exact if_pos ⟨phase, ready, unknown⟩
  case notReady =>
    refine ⟨.ignore (some .notReady), ?_, rfl, rfl⟩
    exact if_pos ⟨phase, running⟩
  case responseEnd => simp only [exec, execResponseEnd, phase, setPhase]
  case idle | command | parameters | ignore => simp [Port.misoByte, Port.miso, phase]
  case mosi =>
    obtain ⟨a, b, c, d, e, f, g, h, rfl⟩ := exists_of_length_eight eight
    exact getLsbD_byteOfLevels a b c d e f g h hj

end Sys2Proof.Machine
end

section
/-! Every row answers a next state and leaves the queue; a command that the port cannot take changes nothing (O7). -/

namespace Sys2Proof.Machine

/-! ### The queue under a command's own rule -/

/-- A command's own rule leaves the queue as it is. -/
def KeepsQueue (rule : State → Answer) : Prop := ∀ s : State, (rule s).state.pending = s.pending

theorem keepsQueue_editCommand (cmd chart : Byte) (posOk : Nat → Bool) (refused grows clamped : Bool)
    (work : Nat → Nat) (edit : List Entry → List Entry) :
    KeepsQueue fun s => editCommand s cmd chart posOk refused grows clamped work edit := by
  intro s
  dsimp only [editCommand]
  repeat' split
  all_goals rfl

theorem pending_applySettings (s : State) (i : StationId) (new : Settings) :
    (applySettings s i new).pending = s.pending := by
  obtain ⟨-, device, -⟩ := engineFrame_applySettings s i new
  obtain ⟨pending, -⟩ := device
  rw [pending]
  split <;> rfl

theorem keepsQueue_stationSet (p : StationSetParams) : KeepsQueue (stationSetAnswer p) := by
  intro s
  unfold stationSetAnswer
  repeat' split
  case isFalse => exact pending_applySettings s _ _
  all_goals rfl

theorem EngineFrame.pending {s t : State} {i : StationId} (h : EngineFrame s t i) : t.pending = s.pending :=
  h.2.1.1

theorem AllocatorFrame.pending {s t : State} (h : AllocatorFrame s t) : t.pending = s.pending := h.2.1.1

theorem keepsQueue_stationRestart (b : Byte) : KeepsQueue (stationRestartAnswer b) := by
  intro s
  unfold stationRestartAnswer
  split
  · rfl
  · exact (engineFrame_restartStation s _).pending

theorem keepsQueue_voiceRetire (b : Byte) : KeepsQueue (voiceRetireAnswer b) := by
  intro s
  unfold voiceRetireAnswer
  repeat' split
  case isTrue => exact (allocatorFrame_freeVoice s _).pending
  all_goals rfl

theorem keepsQueue_stationRead (b clear : Byte) : KeepsQueue (stationReadAnswer b clear) := by
  intro s
  dsimp only [stationReadAnswer]
  repeat' split
  all_goals rfl

theorem keepsQueue_keysenseSet (b : Byte) (senses : Vector Byte 8) : KeepsQueue (keysenseSetAnswer b senses) := by
  intro s
  unfold keysenseSetAnswer
  split <;> rfl

theorem keepsQueue_chartRead (b p : Byte) : KeepsQueue (chartReadAnswer b p) := by
  intro s
  dsimp only [chartReadAnswer]
  repeat' split
  all_goals rfl

theorem keepsQueue_templateSet (b count : Byte) (l0 l1 l2 : LayerParams) :
    KeepsQueue (templateSetAnswer b count l0 l1 l2) := by
  intro s
  dsimp only [templateSetAnswer]
  repeat' split
  all_goals rfl

theorem keepsQueue_templateRead (b : Byte) : KeepsQueue (templateReadAnswer b) := by
  intro s
  unfold templateReadAnswer
  split <;> rfl

theorem keepsQueue_templateClear (b : Byte) : KeepsQueue (templateClearAnswer b) := by
  intro s
  unfold templateClearAnswer
  split <;> rfl

theorem keepsQueue_waveDefine (b : Byte) (start : Half) (k : Byte) : KeepsQueue (waveDefineAnswer b start k) := by
  intro s
  unfold waveDefineAnswer
  repeat' split
  all_goals rfl

theorem keepsQueue_waveDelete (b : Byte) : KeepsQueue (waveDeleteAnswer b) := by
  intro s
  unfold waveDeleteAnswer
  repeat' split
  all_goals rfl

theorem keepsQueue_waveWrite (start : Half) (count : Byte) (samples : List Half) :
    KeepsQueue (waveWriteAnswer start count samples) := by
  intro s
  unfold waveWriteAnswer
  split <;> rfl

theorem keepsQueue_waveRead (start : Half) (count : Byte) : KeepsQueue (waveReadAnswer start count) := by
  intro s
  unfold waveReadAnswer
  split <;> rfl

theorem keepsQueue_voiceRead (b : Byte) : KeepsQueue (voiceReadAnswer b) := by
  intro s
  unfold voiceReadAnswer
  split <;> rfl

theorem keepsQueue_faultClear (n : Half) : KeepsQueue (faultClearAnswer n) := by
  intro s
  unfold faultClearAnswer
  split <;> rfl

/-! ### Commands of the wire -/

/-- What a command of the wire does: its bytes are accepted under a rule of its own, but that a WAVE_WRITE whose
samples are not as many as it says changes nothing. -/
theorem exec_of_wire {c : Instr} {cmd : Byte} {bytes : List Byte} (h : wireOf c = some (cmd, bytes)) :
    (c.wellFormed = false ∧ ∀ s, exec c s = .next s)
      ∨ ∃ rule, KeepsQueue rule ∧ ∀ s, exec c s = accept s cmd bytes rule := by
  cases c
  case waveWrite start count samples =>
    cases h
    cases whole : (Instr.waveWrite start count samples).wellFormed with
    | true => exact .inr ⟨_, keepsQueue_waveWrite start count samples, fun s => if_pos whole⟩
    | false => exact .inl ⟨rfl, fun s => if_neg (by simp [whole])⟩
  case statusRead | chartInfo | panic | faultRead | faultPolicy =>
    cases h
    exact .inr ⟨_, fun _ => rfl, fun _ => rfl⟩
  case chartAppend | chartInsert | chartReplace | chartRemove | chartClear =>
    cases h
    exact .inr ⟨_, keepsQueue_editCommand _ _ _ _ _ _ _ _, fun _ => rfl⟩
  case stationRead => cases h; exact .inr ⟨_, keepsQueue_stationRead _ _, fun _ => rfl⟩
  case stationSet => cases h; exact .inr ⟨_, keepsQueue_stationSet _, fun _ => rfl⟩
  case keysenseSet => cases h; exact .inr ⟨_, keepsQueue_keysenseSet _ _, fun _ => rfl⟩
  case stationRestart => cases h; exact .inr ⟨_, keepsQueue_stationRestart _, fun _ => rfl⟩
  case chartRead => cases h; exact .inr ⟨_, keepsQueue_chartRead _ _, fun _ => rfl⟩
  case templateSet => cases h; exact .inr ⟨_, keepsQueue_templateSet _ _ _ _ _, fun _ => rfl⟩
  case templateRead => cases h; exact .inr ⟨_, keepsQueue_templateRead _, fun _ => rfl⟩
  case templateClear => cases h; exact .inr ⟨_, keepsQueue_templateClear _, fun _ => rfl⟩
  case waveDefine => cases h; exact .inr ⟨_, keepsQueue_waveDefine _ _ _, fun _ => rfl⟩
  case waveRead => cases h; exact .inr ⟨_, keepsQueue_waveRead _ _, fun _ => rfl⟩
  case waveDelete => cases h; exact .inr ⟨_, keepsQueue_waveDelete _, fun _ => rfl⟩
  case voiceRead => cases h; exact .inr ⟨_, keepsQueue_voiceRead _, fun _ => rfl⟩
  case faultClear => cases h; exact .inr ⟨_, keepsQueue_faultClear _, fun _ => rfl⟩
  case voiceRetire => cases h; exact .inr ⟨_, keepsQueue_voiceRetire _, fun _ => rfl⟩
  all_goals cases h

theorem portTakes_eq {c : Instr} {cmd : Byte} {bytes : List Byte} (h : wireOf c = some (cmd, bytes)) (s : State) :
    portTakes s c = takesCommand s cmd bytes := by simp only [portTakes, h]

/-! ### The events of the part -/

/-- A row goes on from s and leaves the queue. -/
def GoesOnFrom (c : Instr) (s : State) : Prop := ∃ t : State, exec c s = .next t ∧ t.pending = s.pending

theorem goesOnFrom_of_wire {c : Instr} {cmd : Byte} {bytes : List Byte} (h : wireOf c = some (cmd, bytes))
    (s : State) : GoesOnFrom c s := by
  rcases exec_of_wire h with ⟨-, same⟩ | ⟨rule, queue, means⟩
  · exact ⟨s, same s, rfl⟩
  · unfold GoesOnFrom
    rw [means s, accept]
    split
    · exact ⟨_, rfl, queue s⟩
    · exact ⟨s, rfl, rfl⟩

theorem pending_foldl {α : Type} {f : State → α → State} (h : ∀ s a, (f s a).pending = s.pending) (l : List α)
    (s : State) : (l.foldl f s).pending = s.pending := by
  induction l generalizing s with
  | nil => rfl
  | cons a l ih => rw [List.foldl_cons, ih, h]

theorem pending_clipStation (sums : Sums) (s : State) (i : StationId) :
    (clipStation sums s i).pending = s.pending := by
  dsimp only [clipStation]
  split <;> rfl

theorem pending_samplePeriod (voices : List VoiceId) (stations : List StationId) (s : State) :
    (samplePeriod voices stations s).pending = s.pending := by
  dsimp only [samplePeriod]
  rw [pending_foldl (pending_clipStation _)]
  exact (allocatorFrame_renderVoices voices (tickClocks s)).pending

theorem pending_abortPort (s : State) : (abortPort s).pending = s.pending := by
  unfold abortPort
  split <;> rfl

theorem engineFrame_dropBuffer (s : State) (i : StationId) : EngineFrame s (dropBuffer s i) i :=
  engineFrame_updStation s i _

/-- A frame that the engine, being free and taking part in the traffic, takes. -/
theorem goesOnFrom_hello (i : StationId) (s : State) : GoesOnFrom (.hello i) s := by
  dsimp only [GoesOnFrom, exec, execHello]
  split
  · split
    · split
      case h_1 | h_2 => exact ⟨s, rfl, rfl⟩
      all_goals exact ⟨_, rfl, ((engineFrame_dropBuffer s i).trans (engineFrame_takeHello ..)).pending⟩
    · exact ⟨s, rfl, rfl⟩
  · exact ⟨s, rfl, rfl⟩

theorem goesOnFrom_play (i : StationId) (s : State) : GoesOnFrom (.play i) s := by
  dsimp only [GoesOnFrom, exec, execPlay]
  split
  · split
    · split
      case h_1 | h_2 => exact ⟨s, rfl, rfl⟩
      all_goals exact ⟨_, rfl, ((engineFrame_dropBuffer s i).trans (engineFrame_takePlay ..)).pending⟩
    · exact ⟨s, rfl, rfl⟩
  · exact ⟨s, rfl, rfl⟩

theorem goesOnFrom_hush (i : StationId) (s : State) : GoesOnFrom (.hush i) s := by
  dsimp only [GoesOnFrom, exec, execHush]
  split
  · split
    · split
      case h_1 | h_2 => exact ⟨s, rfl, rfl⟩
      all_goals exact ⟨_, rfl, ((engineFrame_dropBuffer s i).trans (engineFrame_takeHush ..)).pending⟩
    · exact ⟨s, rfl, rfl⟩
  · exact ⟨s, rfl, rfl⟩

theorem goesOnFrom_character (i : StationId) (start data mark stop : List Bool) (s : State) :
    GoesOnFrom (.character i start data mark stop) s := by
  dsimp only [GoesOnFrom, exec, execCharacter]
  split
  · exact ⟨s, rfl, rfl⟩
  · split
    · exact ⟨_, rfl, (engineFrame_hearLevels ..).pending⟩
    · exact ⟨s, rfl, rfl⟩

theorem goesOnFrom_sync (i : StationId) (intervals : List Nat) (stop : Bool) (s : State) :
    GoesOnFrom (.sync i intervals stop) s := by
  dsimp only [GoesOnFrom, exec, execSync]
  split
  · exact ⟨s, rfl, rfl⟩
  · exact ⟨_, rfl, (((engineFrame_dropIncomplete s i).trans (engineFrame_updStation ..)).trans
      (engineFrame_handSync ..)).pending⟩

theorem goesOnFrom_drainCompletion (v : VoiceId) (s : State) : GoesOnFrom (.drainCompletion v) s := by
  dsimp only [GoesOnFrom, exec, execDrainCompletion]
  split
  · split
    · exact ⟨_, rfl, (allocatorFrame_handOver ..).pending⟩
    · exact ⟨s, rfl, rfl⟩
  · exact ⟨s, rfl, rfl⟩

theorem goesOnFrom_responseEnd (s : State) : GoesOnFrom .responseEnd s := by
  dsimp only [GoesOnFrom, exec, execResponseEnd]
  split <;> exact ⟨_, rfl, rfl⟩

theorem goesOnFrom_parameterByte (b : Byte) (s : State) : GoesOnFrom (.parameterByte b) s := by
  dsimp only [GoesOnFrom, exec, execParameterByte]
  split <;> exact ⟨_, rfl, rfl⟩

theorem goesOnFrom_transactionBegin (s : State) : GoesOnFrom .transactionBegin s := by
  dsimp only [GoesOnFrom, exec, execTransactionBegin]
  repeat' split
  all_goals exact ⟨_, rfl, rfl⟩

/-- A row that acts where its test holds, and leaves the queue where it acts. -/
theorem goesOn_ite {p : Prop} [Decidable p] {s t : State} (h : t.pending = s.pending) :
    ∃ u : State, (if p then .next t else .next s : Host.Outcome State Fault Refusal) = .next u
      ∧ u.pending = s.pending := by
  split
  · exact ⟨t, rfl, h⟩
  · exact ⟨s, rfl, rfl⟩

/-- An event acts where its own test holds, a command of the wire where the port
takes it. -/
theorem goesOnFrom (c : Instr) (s : State) : GoesOnFrom c s := by
  cases c with
  | powerOn => exact ⟨_, rfl, rfl⟩
  | powerOnClearEnd => exact goesOn_ite rfl
  | pinReset => exact ⟨_, rfl, rfl⟩
  | transactionBegin => exact goesOnFrom_transactionBegin s
  | transactionEnd => exact goesOn_ite (pending_abortPort s)
  | unknownCommandByte b => exact goesOn_ite rfl
  | editCompletion order =>
    exact goesOn_ite (pending_foldl (fun u i => (engineFrame_resumeStall u i).pending) _ _)
  | character i start data mark stop => exact goesOnFrom_character i start data mark stop s
  | sync i intervals stop => exact goesOnFrom_sync i intervals stop s
  | syncTaken i => exact goesOn_ite (engineFrame_takeSync s i).pending
  | hello i => exact goesOnFrom_hello i s
  | play i => exact goesOnFrom_play i s
  | hush i => exact goesOnFrom_hush i s
  | replyEnd i => exact goesOn_ite rfl
  | settleExpiry i =>
    exact goesOn_ite ((engineFrame_updStation s i _).trans (engineFrame_resolveOrStall ..)).pending
  | silenceTimeout i => exact goesOn_ite (engineFrame_takeSilence s i).pending
  | samplePeriod voices stations => exact ⟨_, rfl, pending_samplePeriod voices stations s⟩
  | glideStep v => exact goesOn_ite rfl
  | releaseCompletion v => exact goesOn_ite (allocatorFrame_freeVoice s v).pending
  | orphanDrainCompletion v => exact goesOn_ite (allocatorFrame_freeVoice s v).pending
  | drainCompletion v => exact goesOnFrom_drainCompletion v s
  | pinResetRelease => exact goesOn_ite rfl
  | parameterByte b => exact goesOnFrom_parameterByte b s
  | notReady b => exact goesOn_ite rfl
  | responseEnd => exact goesOnFrom_responseEnd s
  | _ => exact goesOnFrom_of_wire rfl s

/-! ### Commands that the port cannot take -/

theorem exec_of_not_taken {c : Instr} {s : State} (wire : (wireOf c).isSome = true) (refused : portTakes s c = false) :
    exec c s = .next s := by
  obtain ⟨⟨cmd, bytes⟩, h⟩ := Option.isSome_iff_exists.1 wire
  rcases exec_of_wire h with ⟨-, same⟩ | ⟨rule, -, means⟩
  · exact same s
  · rw [means s, accept_not_taken (portTakes_eq h s ▸ refused)]

theorem takesCommand_of_clear {s : State} (running : s.clearRunning = true) (phase : s.port.phase = .command)
    (cmd : Byte) (bytes : List Byte) : takesCommand s cmd bytes = false := by
  simp [takesCommand, phase, running]

theorem portTakes_of_clear {c : Instr} {s : State} (running : s.clearRunning = true)
    (phase : s.port.phase = .command) : portTakes s c = false := by
  unfold portTakes
  split
  · exact takesCommand_of_clear running phase _ _
  · rfl

/-- Settles O7. -/
theorem noCommandStopsThePart : Obligations.NoCommandStopsThePart :=
  ⟨goesOnFrom, fun _ _ wire refused => exec_of_not_taken wire refused,
    fun _ _ running phase => portTakes_of_clear running phase⟩

end Sys2Proof.Machine
end

section
/-! Bytes on MOSI and the commands they name (O8), and numbers that name nothing (O9). -/

namespace Sys2Proof.Machine

/-! ### Parameter bytes -/

section Params

variable {l : List Byte} {c : Instr}

theorem params0_eq_some_iff {x : Instr} : params0 x l = some c ↔ l = [] ∧ x = c := by
  unfold params0
  split <;> simp_all

theorem params1_eq_some_iff {f : Byte → Instr} : params1 f l = some c ↔ ∃ a, l = [a] ∧ f a = c := by
  unfold params1
  split
  · simp
  · next other => exact ⟨nofun, fun ⟨a, h, _⟩ => absurd h (other a)⟩

theorem params2_eq_some_iff {f : Byte → Byte → Instr} :
    params2 f l = some c ↔ ∃ a b, l = [a, b] ∧ f a b = c := by
  unfold params2
  split
  · exact ⟨fun h => ⟨_, _, rfl, Option.some.inj h⟩, fun ⟨_, _, rfl, value⟩ => congrArg some value⟩
  · next other => exact ⟨nofun, fun ⟨a, b, h, _⟩ => absurd h (other a b)⟩

theorem params3_eq_some_iff {f : Byte → Byte → Byte → Instr} :
    params3 f l = some c ↔ ∃ a b d, l = [a, b, d] ∧ f a b d = c := by
  unfold params3
  split
  · exact ⟨fun h => ⟨_, _, _, rfl, Option.some.inj h⟩, fun ⟨_, _, _, rfl, value⟩ => congrArg some value⟩
  · next other => exact ⟨nofun, fun ⟨a, b, d, h, _⟩ => absurd h (other a b d)⟩

theorem params4_eq_some_iff {f : Byte → Byte → Byte → Byte → Instr} :
    params4 f l = some c ↔ ∃ a b d e, l = [a, b, d, e] ∧ f a b d e = c := by
  unfold params4
  split
  · exact ⟨fun h => ⟨_, _, _, _, rfl, Option.some.inj h⟩, fun ⟨_, _, _, _, rfl, value⟩ => congrArg some value⟩
  · next other => exact ⟨nofun, fun ⟨a, b, d, e, h, _⟩ => absurd h (other a b d e)⟩

theorem paramsThen_eq_some_iff {α : Type} {record : List Byte → Option α} {f : Byte → α → Instr} :
    paramsThen record f l = some c ↔ ∃ a rest x, l = a :: rest ∧ record rest = some x ∧ f a x = c := by
  unfold paramsThen
  cases l with
  | nil => exact ⟨nofun, fun ⟨_, _, _, h, _⟩ => absurd h nofun⟩
  | cons a rest =>
    rw [Option.map_eq_some_iff]
    exact ⟨fun ⟨x, read, value⟩ => ⟨a, rest, x, rfl, read, value⟩, fun ⟨_, _, x, rfl, read, value⟩ => ⟨x, read, value⟩⟩

end Params

/-! ### The command that bytes name -/

/-- The bytes name a command that travels as them. -/
theorem wireOf_of_commandOf {cmd : Byte} {bytes : List Byte} {c : Instr} (h : commandOf cmd bytes = some c) :
    c.wellFormed = true ∧ wireOf c = some (cmd, bytes) := by
  unfold commandOf at h
  have byte {n : Nat} (hn : cmd.toNat = n) : BitVec.ofNat 8 n = cmd := by rw [← hn, BitVec.ofNat_toNat, BitVec.setWidth_eq]
  split at h
  case h_26 => cases h
  all_goals
    rename_i value
    obtain rfl := byte value
    clear byte
  case h_1 | h_6 | h_13 | h_22 =>
    obtain ⟨rfl, rfl⟩ := params0_eq_some_iff.1 h
    exact ⟨rfl, rfl⟩
  case h_5 | h_12 | h_15 | h_16 | h_20 | h_21 | h_24 =>
    obtain ⟨a, rfl, rfl⟩ := params1_eq_some_iff.1 h
    exact ⟨rfl, rfl⟩
  case h_2 | h_7 | h_11 =>
    obtain ⟨a, b, rfl, rfl⟩ := params2_eq_some_iff.1 h
    exact ⟨rfl, rfl⟩
  case h_3 =>
    obtain ⟨p, record, rfl⟩ := Option.map_eq_some_iff.1 h
    exact ⟨rfl, by rw [stationSetFrom_eq_some_iff.1 record]; rfl⟩
  case h_4 =>
    obtain ⟨a, rest, senses, rfl, record, rfl⟩ := paramsThen_eq_some_iff.1 h
    exact ⟨rfl, by rw [sensesFrom_eq_some_iff.1 record]; rfl⟩
  case h_8 =>
    obtain ⟨a, rest, e, rfl, record, rfl⟩ := paramsThen_eq_some_iff.1 h
    exact ⟨rfl, by rw [entryFrom_eq_some_iff.1 record]; rfl⟩
  case h_9 | h_10 =>
    obtain ⟨a, rest, x, rfl, record, rfl⟩ := paramsThen_eq_some_iff.1 h
    exact ⟨rfl, by rw [placedFrom_eq_some_iff.1 record]; rfl⟩
  case h_14 =>
    obtain ⟨template, count, l0, l1, l2, rfl, rfl⟩ := templateSetFrom_eq_some_iff.1 h
    exact ⟨rfl, rfl⟩
  case h_17 =>
    obtain ⟨wave, s1, s0, k, rfl, rfl⟩ := params4_eq_some_iff.1 h
    exact ⟨rfl, by rw [wireOf, be16_halfOf]; rfl⟩
  case h_18 =>
    obtain ⟨start, count, xs, rfl, whole, rfl⟩ := waveWriteFrom_eq_some_iff.1 h
    exact ⟨whole, rfl⟩
  case h_19 =>
    obtain ⟨s1, s0, count, rfl, rfl⟩ := params3_eq_some_iff.1 h
    exact ⟨rfl, by rw [wireOf, be16_halfOf]; rfl⟩
  case h_23 =>
    obtain ⟨c1, c0, rfl, rfl⟩ := params2_eq_some_iff.1 h
    exact ⟨rfl, by rw [wireOf, be16_halfOf]; rfl⟩
  case h_25 =>
    obtain ⟨e1, e0, m1, m0, rfl, rfl⟩ := params4_eq_some_iff.1 h
    exact ⟨rfl, by rw [wireOf, be16_halfOf, be16_halfOf]; rfl⟩

/-- A well-formed command is named by the bytes it travels as. -/
theorem commandOf_of_wireOf {cmd : Byte} {bytes : List Byte} {c : Instr} (whole : c.wellFormed = true)
    (h : wireOf c = some (cmd, bytes)) : commandOf cmd bytes = some c := by
  cases c
  case statusRead | stationRead | stationRestart | panic | chartRead | chartRemove | chartClear | chartInfo
      | templateRead | templateClear | waveDelete | voiceRead | faultRead | voiceRetire =>
    cases h
    rfl
  case stationSet p => cases h; exact congrArg (Option.map _) (stationSetFrom_eq_some_iff.2 rfl)
  case keysenseSet b senses => cases h; exact congrArg (Option.map _) (sensesFrom_eq_some_iff.2 rfl)
  case chartAppend b e => cases h; exact congrArg (Option.map _) (entryFrom_eq_some_iff.2 rfl)
  case chartInsert b p e =>
    cases h
    exact congrArg (Option.map fun x : Byte × EntryParams => Instr.chartInsert b x.1 x.2)
      (placedFrom_eq_some_iff (x := (p, e)).2 rfl)
  case chartReplace b p e =>
    cases h
    exact congrArg (Option.map fun x : Byte × EntryParams => Instr.chartReplace b x.1 x.2)
      (placedFrom_eq_some_iff (x := (p, e)).2 rfl)
  case templateSet => cases h; exact templateSetFrom_eq_some_iff.2 ⟨_, _, _, _, _, rfl, rfl⟩
  case waveWrite => cases h; exact waveWriteFrom_eq_some_iff.2 ⟨_, _, _, rfl, whole, rfl⟩
  case waveDefine b start k => cases h; exact congrArg (fun x => some (Instr.waveDefine b x k)) (halfOf_be16 start)
  case waveRead start count => cases h; exact congrArg (fun x => some (Instr.waveRead x count)) (halfOf_be16 start)
  case faultClear n => cases h; exact congrArg (fun x => some (Instr.faultClear x)) (halfOf_be16 n)
  case faultPolicy e m =>
    cases h
    exact congr (congrArg (fun x y => some (Instr.faultPolicy x y)) (halfOf_be16 e)) (halfOf_be16 m)
  all_goals cases h

theorem commandOf_eq_some_iff (c : Instr) (cmd : Byte) (bytes : List Byte) :
    commandOf cmd bytes = some c ↔ c.wellFormed = true ∧ wireOf c = some (cmd, bytes) :=
  ⟨wireOf_of_commandOf, fun ⟨whole, wire⟩ => commandOf_of_wireOf whole wire⟩

end Sys2Proof.Machine
end

section
/-! A command taken byte by byte (O8), and numbers that name nothing (O9). -/

namespace Sys2Proof.Machine

/-! ### The number of a command's bytes -/

/-- A command byte has as many parameter bytes as R166's table says, a WAVE_WRITE two for each sample besides. -/
def SizedBytes (cmd : Byte) (bytes : List Byte) : Prop :=
  ∃ n, paramCount cmd = some n
    ∧ bytes.length = if cmd = 0x31 then n + 2 * Instr.samplesFor (bytes.getD 2 0) else n

open Sys2Proof.Laws in
theorem sizedBytes_of_wire {c : Instr} {cmd : Byte} {bytes : List Byte} (whole : c.wellFormed = true)
    (wire : wireOf c = some (cmd, bytes)) : SizedBytes cmd bytes := by
  suffices size : Wire.Statement c from size whole cmd bytes wire
  cases c with
  | statusRead => exact Wire.statusRead
  | stationRead => exact Wire.stationRead _ _
  | stationSet => exact Wire.stationSet _
  | keysenseSet => exact Wire.keysenseSet _ _
  | stationRestart => exact Wire.stationRestart _
  | panic => exact Wire.panic
  | chartRead => exact Wire.chartRead _ _
  | chartAppend => exact Wire.chartAppend _ _
  | chartInsert => exact Wire.chartInsert _ _ _
  | chartReplace => exact Wire.chartReplace _ _ _
  | chartRemove => exact Wire.chartRemove _ _
  | chartClear => exact Wire.chartClear _
  | chartInfo => exact Wire.chartInfo
  | templateSet => exact Wire.templateSet _ _ _ _ _
  | templateRead => exact Wire.templateRead _
  | templateClear => exact Wire.templateClear _
  | waveDefine => exact Wire.waveDefine _ _ _
  | waveWrite => exact Wire.waveWrite _ _ _
  | waveRead => exact Wire.waveRead _ _
  | waveDelete => exact Wire.waveDelete _
  | voiceRead => exact Wire.voiceRead _
  | faultRead => exact Wire.faultRead
  | faultClear => exact Wire.faultClear _
  | voiceRetire => exact Wire.voiceRetire _
  | faultPolicy => exact Wire.faultPolicy _ _
  | _ => cases wire

/-- The number of parameter bytes expected with so many of them taken: for WAVE_WRITE three until the count byte is
taken (R163). -/
def expectedAt (cmd : Byte) (bytes : List Byte) (taken : Nat) : Nat :=
  if cmd = 0x31 ∧ taken < 3 then 3 else bytes.length

section Expected

variable {cmd b : Byte} {bytes before rest : List Byte}

theorem SizedBytes.three_le (size : SizedBytes cmd bytes) (write : cmd = 0x31) : 3 ≤ bytes.length := by
  obtain ⟨n, count, length⟩ := size
  subst write
  obtain rfl : 3 = n := Option.some.inj count
  rw [if_pos rfl] at length
  omega

theorem SizedBytes.paramCount_eq (size : SizedBytes cmd bytes) : paramCount cmd = some (expectedAt cmd bytes 0) := by
  obtain ⟨n, count, length⟩ := size
  unfold expectedAt
  by_cases write : cmd = 0x31
  · subst write
    rfl
  · rw [if_neg write] at length
    rw [count, if_neg fun h => write h.1, length]

theorem expectedAfter_expectedAt (size : SizedBytes cmd bytes) (split : bytes = before ++ b :: rest) :
    expectedAfter cmd before (expectedAt cmd bytes before.length) b = expectedAt cmd bytes (before.length + 1) := by
  by_cases counted : cmd = 0x31 ∧ before.length = 2
  · obtain ⟨write, two⟩ := counted
    obtain ⟨n, count, length⟩ := size
    subst write
    obtain rfl : 3 = n := Option.some.inj count
    have third : bytes.getD 2 0 = b := by simp [split, two]
    have full : ¬((0x31 : Byte) = 0x31 ∧ 2 + 1 < 3) := fun h => absurd h.2 (by decide)
    rw [expectedAfter_count _ two, expectedAt, two, if_neg full, length, if_pos rfl, third]
  · have same : cmd = 0x31 ∧ before.length < 3 ↔ cmd = 0x31 ∧ before.length + 1 < 3 :=
      and_congr_right fun write => by
        have other : before.length ≠ 2 := fun two => counted ⟨write, two⟩
        omega
    rw [expectedAfter, if_neg counted, expectedAt, expectedAt]
    simp only [same]

/-- More bytes are expected exactly where more of them are to come. -/
theorem lt_expectedAt_iff (size : SizedBytes cmd bytes) {n : Nat} (within : n ≤ bytes.length) :
    n < expectedAt cmd bytes n ↔ n < bytes.length := by
  unfold expectedAt
  split
  · next h =>
    have three := size.three_le h.1
    omega
  · rfl

/-- With the last byte alone to come the number expected is the whole number. -/
theorem expectedAt_last (size : SizedBytes cmd bytes) {n : Nat} (last : bytes.length = n + 1) :
    expectedAt cmd bytes n = bytes.length := by
  unfold expectedAt
  split
  · next h =>
    obtain ⟨write, few⟩ := h
    obtain ⟨m, count, length⟩ := size
    subst write
    obtain rfl : 3 = m := Option.some.inj count
    rw [if_pos rfl] at length
    omega
  · rfl

end Expected

/-! ### Bytes fed one after the other -/

theorem exec_parameterByte (s : State) (b : Byte) :
    exec (.parameterByte b) s = .next ((takeByte s b).elim s (setPhase s)) := by
  cases h : takeByte s b <;> simp only [exec, execParameterByte, h, Option.elim]

theorem feedBytes_cons (s : State) (b : Byte) (l : List Byte) :
    feedBytes s (b :: l) = feedBytes (feedBytes s [b]) l := by
  simp only [feedBytes, exec_parameterByte]

theorem feedBytes_append (s : State) (l m : List Byte) : feedBytes s (l ++ m) = feedBytes (feedBytes s l) m := by
  induction l generalizing s with
  | nil => rfl
  | cons b l ih => rw [List.cons_append, feedBytes_cons, ih, ← feedBytes_cons]

theorem feedBytes_of_take {s : State} {b : Byte} {p : PortPhase} (h : takeByte s b = some p) :
    feedBytes s [b] = setPhase s p := by
  simp only [feedBytes, exec_parameterByte, h, Option.elim]

section Feeding

variable {s : State} {c : Instr} {cmd : Byte} {bytes : List Byte}

/-- After the command byte and some parameter bytes, but not all, the port stands in PARAMETERS with them. -/
theorem feedBytes_command (size : SizedBytes cmd bytes) (phase : s.port.phase = .command)
    (ready : s.clearRunning = false) {before rest : List Byte} (split : bytes = before ++ rest) (more : rest ≠ []) :
    feedBytes s (cmd :: before) = setPhase s (.parameters cmd before (expectedAt cmd bytes before.length)) := by
  induction before using list_append_induction generalizing rest with
  | nil =>
    have some_params : 0 < expectedAt cmd bytes 0 :=
      (lt_expectedAt_iff size (Nat.zero_le _)).2 (List.length_pos_iff.2 (split ▸ more))
    exact feedBytes_of_take (takeByte_command phase ready size.paramCount_eq some_params)
  | append before b ih =>
    have parted : bytes = before ++ b :: rest := by rw [split, List.append_assoc]; rfl
    have longer : before.length + 1 < bytes.length := by
      have := List.length_pos_iff.2 more
      rw [parted, List.length_append, List.length_cons]
      omega
    have expected := expectedAfter_expectedAt size parted
    have test : before.length + 1 < expectedAfter cmd before (expectedAt cmd bytes before.length) b :=
      expected ▸ (lt_expectedAt_iff size (Nat.le_of_lt longer)).2 longer
    have taken := takeByte_parameters
      (s := setPhase s (.parameters cmd before (expectedAt cmd bytes before.length))) rfl test
    rw [← List.cons_append, feedBytes_append, ih parted (List.cons_ne_nil _ _), feedBytes_of_take taken, expected,
      List.length_append]
    rfl

theorem portTakes_before_last (wire : wireOf c = some (cmd, bytes)) {before : List Byte} {b : Byte}
    (split : bytes = before ++ [b]) (n : Nat) : portTakes (setPhase s (.parameters cmd before n)) c = true := by
  have longer : before.length < bytes.length := by simp [split]
  have first : bytes.take before.length = before := by simp [split]
  simp [portTakes_eq wire, takesCommand, setPhase, longer, first]

/-- In PARAMETERS a byte that is not the last stands for PARAMETER_BYTE, the last for the command. -/
theorem rowOfByte_parameters (whole : c.wellFormed = true) (wire : wireOf c = some (cmd, bytes))
    {before rest : List Byte} {b : Byte} (split : bytes = before ++ b :: rest) :
    (setPhase s (.parameters cmd before (expectedAt cmd bytes before.length))).rowOfByte b =
      some (if rest = [] then c else .parameterByte b) := by
  have size := sizedBytes_of_wire whole wire
  have length : bytes.length = before.length + 1 + rest.length := by
    rw [split, List.length_append, List.length_cons]; omega
  have test : before.length + 1 < expectedAfter cmd before (expectedAt cmd bytes before.length) b ↔ rest ≠ [] := by
    rw [expectedAfter_expectedAt size split, lt_expectedAt_iff size (by omega), ← List.length_pos_iff]
    omega
  simp only [State.rowOfByte, setPhase, test]
  by_cases last : rest = []
  · rw [if_neg (Classical.not_not.2 last), if_pos last, ← commandOf_of_wireOf whole wire, split, last]
  · rw [if_pos last, if_neg last]

theorem rowOfByte_command (whole : c.wellFormed = true) (wire : wireOf c = some (cmd, bytes))
    (phase : s.port.phase = .command) (ready : s.clearRunning = false) :
    s.rowOfByte cmd = some (if bytes = [] then c else .parameterByte cmd) := by
  have size := sizedBytes_of_wire whole wire
  have test := lt_expectedAt_iff size (Nat.zero_le _)
  simp only [State.rowOfByte, phase, ready, size.paramCount_eq]
  cases count : expectedAt cmd bytes 0 with
  | zero =>
    have none_left : bytes = [] := List.length_eq_zero_iff.1 (by omega)
    rw [if_pos none_left, ← commandOf_of_wireOf whole wire, none_left]
    rfl
  | succ n =>
    have some_left : bytes ≠ [] := List.length_pos_iff.1 (by omega)
    simp only [if_neg some_left, Bool.false_eq_true, if_false]

end Feeding

/-- Settles O8: the bytes before the last lead from COMMAND through PARAMETERS, by induction on them. -/
theorem byteByByteReachesTheCommand : Obligations.ByteByByteReachesTheCommand := by
  unfold Obligations.ByteByByteReachesTheCommand
  refine ⟨commandOf_eq_some_iff, fun c s cmd bytes whole wire phase ready => ?_⟩
  have size := sizedBytes_of_wire whole wire
  suffices reach : portTakes (feedBytes s (cmd :: bytes).dropLast) c = true
      ∧ ∃ p, feedBytes s (cmd :: bytes).dropLast = { s with port := { s.port with phase := p } }
        ∧ (bytes = [] → p = .command) ∧ (bytes ≠ [] → p = .parameters cmd bytes.dropLast bytes.length) by
    refine ⟨reach.1, reach.2, fun before b rest parted => ?_⟩
    cases before with
    | nil =>
      obtain ⟨rfl, rfl⟩ := List.cons.inj parted
      exact rowOfByte_command whole wire phase ready
    | cons first before =>
      obtain ⟨same, rest_parted⟩ := List.cons.inj (parted.trans List.cons_append)
      subst same
      rw [feedBytes_command size phase ready rest_parted (List.cons_ne_nil _ _)]
      exact rowOfByte_parameters whole wire rest_parted
  rcases eq_nil_or_append_singleton bytes with none_left | ⟨before, b, parted⟩
  · subst none_left
    refine ⟨?_, .command, ?_, fun _ => rfl, fun h => absurd rfl h⟩
    · rw [portTakes_eq wire]
      simp [feedBytes, takesCommand, phase, ready]
    · rw [← phase]
      rfl
  · have last : (cmd :: bytes).dropLast = cmd :: before := by rw [parted, ← List.cons_append, List.dropLast_concat]
    have length : bytes.length = before.length + 1 := by rw [parted, List.length_append]; rfl
    rw [last, feedBytes_command size phase ready parted (List.cons_ne_nil _ _), expectedAt_last size length]
    refine ⟨portTakes_before_last wire parted _, _, rfl, fun h => ?_, fun _ => ?_⟩
    · rw [h] at length
      cases length
    · rw [parted, List.dropLast_concat]

/-! ### Numbers that name nothing (O9) -/

/-- A command that its own rule refuses is answered with the code, and changes nothing. -/
theorem exec_refused {c : Instr} {s : State} {cmd : Byte} {bytes : List Byte} {rule : State → Answer}
    {code : ResultCode} (means : exec c s = accept s cmd bytes rule) (taken : takesCommand s cmd bytes = true)
    (refused : rule s = refuse s code) : exec c s = .next (s.answered code []) := by
  rw [means, accept_taken taken, refused, refuse]

theorem editCommand_noChart {s : State} {b : Byte} (idle : s.charts.edit = none) (h : 8 ≤ b.toNat) (cmd : Byte)
    (posOk : Nat → Bool) (refused grows clamped : Bool) (work : Nat → Nat) (edit : List Entry → List Entry) :
    editCommand s cmd b posOk refused grows clamped work edit = refuse s .range := by
  simp [editCommand, idle, nameOf_none h]

theorem noStation {s : State} {b x : Byte} (h : 4 ≤ b.toNat) {c : Instr}
    (hc : c = .stationRead b x ∨ (∃ p, p.station = b ∧ c = .stationSet p)
      ∨ (∃ l, c = .keysenseSet b l) ∨ c = .stationRestart b)
    (taken : portTakes s c = true) : exec c s = .next (s.answered .range []) := by
  have none_named : nameOf 4 b = none := nameOf_none h
  obtain rfl | ⟨p, rfl, rfl⟩ | ⟨l, rfl⟩ | rfl := hc
  · exact exec_refused rfl taken (by simp [stationReadAnswer, none_named])
  · exact exec_refused rfl taken (by simp [stationSetAnswer, none_named])
  · exact exec_refused rfl taken (by simp [keysenseSetAnswer, none_named])
  · exact exec_refused rfl taken (by simp [stationRestartAnswer, none_named])

theorem noChart {s : State} {b x : Byte} (h : 8 ≤ b.toNat) (idle : s.charts.edit = none) {c : Instr}
    (hc : c = .chartRead b x ∨ (∃ e, c = .chartAppend b e) ∨ (∃ e, c = .chartInsert b x e)
      ∨ (∃ e, c = .chartReplace b x e) ∨ c = .chartRemove b x ∨ c = .chartClear b)
    (taken : portTakes s c = true) : exec c s = .next (s.answered .range []) := by
  obtain rfl | ⟨e, rfl⟩ | ⟨e, rfl⟩ | ⟨e, rfl⟩ | rfl | rfl := hc
  · exact exec_refused rfl taken (chartReadAnswer_noChart idle h)
  all_goals exact exec_refused rfl taken (editCommand_noChart idle h _ _ _ _ _ _ _)

theorem noTemplate {s : State} {b x : Byte} (h : 16 ≤ b.toNat) {c : Instr}
    (hc : (∃ l0 l1 l2, c = .templateSet b x l0 l1 l2) ∨ c = .templateRead b ∨ c = .templateClear b)
    (taken : portTakes s c = true) : exec c s = .next (s.answered .range []) := by
  have none_named : nameOf 16 b = none := nameOf_none h
  obtain ⟨l0, l1, l2, rfl⟩ | rfl | rfl := hc
  · exact exec_refused rfl taken (by simp [templateSetAnswer, none_named])
  · exact exec_refused rfl taken (by simp [templateReadAnswer, none_named])
  · exact exec_refused rfl taken (by simp [templateClearAnswer, none_named])

theorem noWaveOrVoice {s : State} {b y : Byte} (h : 32 ≤ b.toNat) {c : Instr}
    (hc : (∃ st, c = .waveDefine b st y) ∨ c = .waveDelete b ∨ c = .voiceRead b ∨ c = .voiceRetire b)
    (taken : portTakes s c = true) : exec c s = .next (s.answered .range []) := by
  have none_named : nameOf 32 b = none := nameOf_none h
  obtain ⟨st, rfl⟩ | rfl | rfl | rfl := hc
  · exact exec_refused rfl taken (by simp [waveDefineAnswer, none_named])
  · exact exec_refused rfl taken (by simp [waveDeleteAnswer, none_named])
  · exact exec_refused rfl taken (by simp [voiceReadAnswer, none_named])
  · exact exec_refused rfl taken (by simp [voiceRetireAnswer, none_named])

/-- Settles O9. -/
theorem numbersThatNameNothingAreRefused : Obligations.NumbersThatNameNothingAreRefused := fun _ _ _ _ =>
  ⟨fun h _ hc taken => noStation h hc taken, fun h idle _ hc taken => noChart h idle hc taken,
    fun h _ hc taken => noTemplate h hc taken, fun h _ hc taken => noWaveOrVoice h hc taken⟩

end Sys2Proof.Machine
end

section
/-! The records of FAULT_READ, VOICE_READ and STATION_READ, group by group (O11 to O13). -/

namespace Sys2Proof.Machine

/-! ### Groups in a record -/

section Groups

variable {groups : List (List Byte)} {sizes : List Nat} {i : Nat} {g r : List Byte} {a k : Nat}

/-- Group i of a record begins at the sum of the sizes of those before it. -/
theorem group_prefix_drop (size : groups.map List.length = sizes) (h : groups[i]? = some g) :
    g <+: groups.flatten.drop (sizes.take i).sum :=
  size ▸ prefix_drop_flatten h

/-- A whole group is read from its place. -/
theorem take_group (h : g <+: r.drop a) (size : g.length = k) : (r.drop a).take k = g := by
  rw [← size]
  exact (List.prefix_iff_eq_take.1 h).symm

/-- The first bytes of a group are read from its place. -/
theorem take_group_first (h : g <+: r.drop a) (within : k ≤ g.length) : (r.drop a).take k = g.take k :=
  take_drop_of_prefix_drop (j := 0) h (by omega)

/-- The last group ends the record. -/
theorem last_group (h : g <+: r.drop a) (size : r.length = a + g.length) : r.drop a = g :=
  (h.eq_of_length (by rw [List.length_drop]; omega)).symm

end Groups

/-! ### FAULT_READ (R159) -/

/-- The number whose bit v is set for each member v of a set. -/
def sumOfBits {n : Nat} (f : Fin n → Bool) : Nat := ((List.finRange n).map fun v => if f v then 2 ^ v.val else 0).sum

theorem sumOfBits_succ {n : Nat} (f : Fin (n + 1) → Bool) :
    sumOfBits f = 2 * sumOfBits (f ∘ Fin.succ) + (f 0).toNat := by
  have shifted : ((List.finRange n).map fun v : Fin n => if f v.succ then 2 ^ (v.val + 1) else 0)
      = (List.finRange n).map fun v => 2 * if (f ∘ Fin.succ) v then 2 ^ v.val else 0 :=
    List.map_congr_left fun v _ => by simp only [Function.comp_apply]; split <;> omega
  have first : (if f 0 then 2 ^ (0 : Fin (n + 1)).val else 0) = (f 0).toNat := by cases f 0 <;> rfl
  rw [sumOfBits, List.finRange_succ, List.map_cons, List.map_map, List.sum_cons, first, Nat.add_comm, sumOfBits,
    ← sum_map_mul, ← shifted]
  rfl

theorem sumOfBits_lt {n : Nat} (f : Fin n → Bool) : sumOfBits f < 2 ^ n := by
  induction n with
  | zero => exact Nat.one_pos
  | succ n ih =>
    have := ih (f ∘ Fin.succ)
    have := Bool.toNat_le (f 0)
    rw [sumOfBits_succ, Nat.pow_succ]
    omega

theorem testBit_sumOfBits {n : Nat} (f : Fin n → Bool) (v : Fin n) : (sumOfBits f).testBit v.val = f v := by
  induction n with
  | zero => exact v.elim0
  | succ n ih =>
    rw [sumOfBits_succ]
    cases v using Fin.cases with
    | zero => cases f 0 <;> simp [Nat.testBit_zero]
    | succ v =>
      have half : (2 * sumOfBits (f ∘ Fin.succ) + (f 0).toNat) / 2 = sumOfBits (f ∘ Fin.succ) := by
        have := Bool.toNat_le (f 0)
        omega
      rw [Fin.val_succ, Nat.testBit_succ, half, ih, Function.comp_apply]

theorem heldSet_eq_sumOfBits (s : State) : heldSet s = sumOfBits fun v : VoiceId => (s.voice v).state == .faulted := by
  simp only [heldSet, allVoices, sumOfBits, beq_iff_eq]

/-- The held-voice set as a word: bit n for a FAULTED Vn. -/
def heldWord (s : State) : Word := BitVec.ofNat 32 (heldSet s)

theorem toNat_heldWord (s : State) : (heldWord s).toNat = heldSet s := by
  have range : heldSet s < 2 ^ 32 := heldSet_eq_sumOfBits s ▸ sumOfBits_lt _
  rw [heldWord, BitVec.toNat_ofNat, Nat.mod_eq_of_lt range]

theorem getLsbD_heldWord (s : State) (v : VoiceId) :
    (heldWord s).getLsbD v.val = ((s.voice v).state == .faulted) := by
  rw [← BitVec.testBit_toNat, toNat_heldWord, heldSet_eq_sumOfBits, testBit_sumOfBits]

theorem length_firstFaultBytes (s : State) : (firstFaultBytes s).length = 13 := by
  unfold firstFaultBytes
  split <;> rfl

/-- The groups of the fault capture's record. -/
def faultGroups (s : State) : List (List Byte) :=
  [firstFaultBytes s,
   be16 s.faults.flags.toNat ++ be16 s.faults.count.toNat ++ be16 s.faults.enable.toNat ++ be16 s.faults.mask.toNat,
   be32 (heldSet s)]

theorem faultRecordBytes_eq_flatten (s : State) : faultRecordBytes s = (faultGroups s).flatten := by
  simp only [faultRecordBytes, faultGroups, List.flatten_cons, List.flatten_nil, List.append_assoc, List.append_nil]

theorem length_faultGroups (s : State) : (faultGroups s).map List.length = [13, 8, 4] := by
  simp only [faultGroups, List.map_cons, List.map_nil, length_firstFaultBytes]
  rfl

theorem length_faultRecordBytes (s : State) : (faultRecordBytes s).length = 25 := by
  rw [faultRecordBytes_eq_flatten, List.length_flatten, length_faultGroups]
  rfl

theorem exec_faultRead_taken {s : State} (taken : portTakes s .faultRead = true) :
    exec .faultRead s = .next ((nextDraw s).answered .ok (faultRecordBytes s)) :=
  accept_taken taken

/-- Settles O13: the first-fault record by the two cases it has, the sets, and the held voices bit by bit. -/
theorem faultReadRecord : Obligations.FaultReadRecord := by
  unfold Obligations.FaultReadRecord
  intro s taken
  have group {i : Nat} {g : List Byte} (h : (faultGroups s)[i]? = some g) :
      g <+: (faultRecordBytes s).drop (([13, 8, 4].take i).sum) :=
    faultRecordBytes_eq_flatten s ▸ group_prefix_drop (length_faultGroups s) h
  have first : firstFaultBytes s <+: (faultRecordBytes s).drop 0 := group (i := 0) rfl
  have sets : be16 s.faults.flags.toNat ++ be16 s.faults.count.toNat ++ be16 s.faults.enable.toNat
      ++ be16 s.faults.mask.toNat <+: (faultRecordBytes s).drop 13 := group (i := 1) rfl
  have held : be32 (heldSet s) <+: (faultRecordBytes s).drop 21 := group (i := 2) rfl
  refine ⟨faultRecordBytes s, exec_faultRead_taken taken, length_faultRecordBytes s, fun f valid => ?valid,
    fun empty => ⟨?kind, ?names⟩, take_group sets rfl, heldWord s, ?held, getLsbD_heldWord s⟩
  case valid =>
    rw [← List.drop_zero (l := faultRecordBytes s), take_group first (length_firstFaultBytes s), firstFaultBytes, valid]
    rfl
  case kind =>
    have byte := getElem?_of_prefix_drop (j := 0) first (by rw [length_firstFaultBytes]; decide)
    rw [Nat.add_zero] at byte
    rw [byte, firstFaultBytes, empty]
    rfl
  case names =>
    rw [← Nat.zero_add 2, take_drop_of_prefix_drop first (by rw [length_firstFaultBytes]; decide), firstFaultBytes,
      empty]
    rfl
  case held => rw [toNat_heldWord, last_group held (length_faultRecordBytes s)]

/-! ### VOICE_READ (R106) -/

section VoiceRead

variable {s : State} {v : VoiceId}

theorem length_positionByte (s : State) (v : VoiceId) : (positionByte s v).length = 1 := by
  unfold positionByte
  split <;> rfl

theorem length_ownerBytes (o : Option Owner) : (ownerBytes o).length = 3 := by cases o <;> rfl

theorem length_bindingByte (s : State) (v : VoiceId) : (bindingByte s v).length = 1 := by
  unfold bindingByte
  split <;> rfl

theorem length_copyBytes (s : State) (c : Option LayerCopy) : (copyBytes s c).length = 18 := by
  cases c with
  | none => rfl
  | some c => cases h : c.waveB <;> simp [copyBytes, h, be8, be16, orFF, toneBytes, signed8, regionBytes, freeBytes]

/-- The groups of a voice's record, its owner or binding one of them. -/
def voiceGroups (s : State) (v : VoiceId) : List (List Byte) :=
  [be8 (s.voice v).state.code, positionByte s v, ownerBytes (ownerOrBinding s v) ++ bindingByte s v,
   be32 (voiceTime (s.voice v)).toNat, copyBytes s (reportedCopy (s.voice v)), renderBytes (s.voice v)]

theorem voiceRecord_eq_flatten (s : State) (v : VoiceId) : voiceRecord s v = (voiceGroups s v).flatten := by
  simp only [voiceRecord, voiceGroups, List.flatten_cons, List.flatten_nil, List.append_assoc, List.append_nil]

theorem length_voiceGroups (s : State) (v : VoiceId) :
    (voiceGroups s v).map List.length = [1, 1, 4, 4, 18, 15] := by
  simp only [voiceGroups, List.map_cons, List.map_nil, length_positionByte, List.length_append, length_ownerBytes,
    length_bindingByte, length_copyBytes]
  rfl

theorem length_voiceRecord (s : State) (v : VoiceId) : (voiceRecord s v).length = 43 := by
  rw [voiceRecord_eq_flatten, List.length_flatten, length_voiceGroups]
  rfl

theorem exec_voiceRead_taken {b : Byte} (named : b.toNat = v.val) (taken : portTakes s (.voiceRead b) = true) :
    exec (.voiceRead b) s = .next ((nextDraw s).answered .ok (voiceRecord s v)) := by
  have rule : voiceReadAnswer b s = ⟨.ok, voiceRecord s v, nextDraw s⟩ := by
    simp only [voiceReadAnswer, nameOf_of_toNat named]
  have means := accept_taken (effect := voiceReadAnswer b) taken
  rwa [rule] at means

theorem ownerOrBinding_owned {o : Owner} (h : (s.voice v).owner = some o)
    (state : (s.voice v).state = .sounding ∨ (s.voice v).state = .releasing ∨ (s.voice v).state = .faulted) :
    ownerOrBinding s v = some o := by
  rcases state with state | state | state <;> simp only [ownerOrBinding, state, h]

end VoiceRead

/-- Settles O12: each group at its place, then by the voice's state. -/
theorem voiceReadRecord : Obligations.VoiceReadRecord := by
  unfold Obligations.VoiceReadRecord
  intro s b v named taken
  have group {i : Nat} {g : List Byte} (h : (voiceGroups s v)[i]? = some g) :
      g <+: (voiceRecord s v).drop (([1, 1, 4, 4, 18, 15].take i).sum) :=
    voiceRecord_eq_flatten s v ▸ group_prefix_drop (length_voiceGroups s v) h
  have code : be8 (s.voice v).state.code <+: (voiceRecord s v).drop 0 := group (i := 0) rfl
  have position : positionByte s v <+: (voiceRecord s v).drop 1 := group (i := 1) rfl
  have owner : ownerBytes (ownerOrBinding s v) ++ bindingByte s v <+: (voiceRecord s v).drop 2 := group (i := 2) rfl
  have time : be32 (voiceTime (s.voice v)).toNat <+: (voiceRecord s v).drop 6 := group (i := 3) rfl
  have copy : copyBytes s (reportedCopy (s.voice v)) <+: (voiceRecord s v).drop 10 := group (i := 4) rfl
  have render : renderBytes (s.voice v) <+: (voiceRecord s v).drop 28 := group (i := 5) rfl
  have four : (ownerBytes (ownerOrBinding s v) ++ bindingByte s v).length = 4 := by
    rw [List.length_append, length_ownerBytes, length_bindingByte]
  have names : ((voiceRecord s v).drop 2).take 3 = ownerBytes (ownerOrBinding s v) := by
    rw [take_group_first owner (by rw [four]; decide), List.take_left' (length_ownerBytes _)]
  have binding : (voiceRecord s v)[5]? = (bindingByte s v)[0]? := by
    rw [getElem?_of_prefix_drop (j := 3) owner (by rw [four]; decide),
      List.getElem?_append_right (Nat.le_of_eq (length_ownerBytes _)), length_ownerBytes]
  refine ⟨voiceRecord s v, exec_voiceRead_taken named taken, length_voiceRecord s v, ?code, ?position,
    fun o owned state => ?owned, fun state noOwner => ?heldAlone, fun state => ?freeNames,
    fun state c bound => ?bound, fun state orphan => ?orphan, fun state => ?unbound, ?time,
    fun c copied inUse => ⟨?copy, fun wb present => ?waveB⟩, fun state => ?noCopy, ?render⟩
  case code =>
    rw [getElem?_of_prefix_drop (a := 0) (j := 0) code Nat.one_pos]
    cases (s.voice v).state <;> rfl
  case position =>
    rw [getElem?_of_prefix_drop (a := 1) (j := 0) position (by rw [length_positionByte]; decide), positionByte]
    split <;> rfl
  case owned => rw [names, ownerOrBinding_owned owned state]; rfl
  case heldAlone => rw [names, ownerOrBinding, state, noOwner]; rfl
  case freeNames => rw [names, ownerOrBinding, state]; rfl
  case bound => rw [take_group owner four, ownerOrBinding, bindingByte, state, bound]; rfl
  case orphan => rw [take_group owner four, ownerOrBinding, bindingByte, state, orphan]; rfl
  case unbound =>
    rw [binding, bindingByte]
    split
    · next draining => exact absurd draining state
    all_goals rfl
  case time =>
    rw [take_group (k := 4) time rfl, voiceTime]
    cases (s.voice v).state <;> rfl
  case copy =>
    rw [take_group_first copy (by rw [length_copyBytes]; decide), reportedCopy, if_neg inUse, copied]
    rfl
  case waveB =>
    rw [take_drop_of_prefix_drop (a := 10) (j := 15) copy (Nat.le_of_eq (length_copyBytes _ _).symm), reportedCopy,
      if_neg inUse, copied, copyBytes, present]
    rfl
  case noCopy =>
    rw [take_group_first copy (by rw [length_copyBytes]; decide), reportedCopy, if_pos state]
    rfl
  case render => exact last_group render (length_voiceRecord s v)

end Sys2Proof.Machine
end

section
/-! The record of STATION_READ, group by group (O11). -/

namespace Sys2Proof.Machine

/-! ### Sizes -/

theorem length_be8 (n : Nat) : (be8 n).length = 1 := rfl

theorem length_be16 (n : Nat) : (be16 n).length = 2 := rfl

theorem length_be32 (n : Nat) : (be32 n).length = 4 := rfl

theorem length_signed8 (x : Int) : (signed8 x).length = 1 := rfl

theorem length_signed16 (x : Int) : (signed16 x).length = 2 := rfl

theorem length_flag8 (b : Bool) : (flag8 b).length = 1 := rfl

theorem length_engineBytes (x : Station) : (engineBytes x).length = 10 := by
  simp only [engineBytes, List.length_append, length_be8, length_be16]

theorem length_settingBytes (c : Settings) : (settingBytes c).length = 26 := by
  unfold settingBytes
  simp only [List.length_append, length_be8, length_flag8]
  simp only [length_be16, length_signed8]

theorem length_breathBytes (b : Breath) : (breathBytes b).length = 10 := by
  simp only [breathBytes, List.length_append, length_be8, length_be16, length_signed16, List.length_singleton]

theorem length_linkBytes (l : Link) : (linkBytes l).length = 11 := by
  simp only [linkBytes, List.length_append, length_be8, length_be16]

section Sizes

variable (s : State)

theorem length_currentBytes (e : Option CurrentEntry) : (currentBytes s e).length = 5 := by cases e <;> rfl

/-- The three bytes of a place of the slot table. -/
def slotPlace (slots : List Slot) (n : Nat) : List Byte := (slots[n]?).elim (noSlotBytes s (5 + n)) slotBytes

theorem length_slotPlace (slots : List Slot) (n : Nat) : (slotPlace s slots n).length = 3 := by
  unfold slotPlace
  cases slots[n]? <;> rfl

theorem slotPlaces_eq (slots : List Slot) : slotPlaces s slots = (List.range 3).flatMap (slotPlace s slots) := by
  unfold slotPlaces
  congr 1
  funext n
  unfold slotPlace
  cases slots[n]? <;> rfl

theorem length_slotPlaces (slots : List Slot) : (slotPlaces s slots).length = 9 := by
  rw [slotPlaces_eq, length_flatMap_of_size (length_slotPlace s slots), List.length_range]

/-- The slot places hold a note's slots in their order. -/
theorem take_drop_slotPlaces {slots : List Slot} {k : Nat} {x : Slot} (within : k < 3) (h : slots[k]? = some x) :
    ((slotPlaces s slots).drop (3 * k)).take 3 = slotBytes x := by
  have place : (List.range 3)[k]? = some k := by
    rw [List.getElem?_eq_getElem (by rwa [List.length_range]), List.getElem_range]
  rw [slotPlaces_eq, ← List.append_nil ((List.range 3).flatMap _),
    take_drop_flatMap_append (length_slotPlace s slots) place, slotPlace, h]
  rfl

theorem length_noteBytes (n : Option NoteRecord) : (noteBytes s n).length = 14 := by
  cases n <;> simp [noteBytes, length_slotPlaces, be8, flag8, orFF, freeByte]

end Sizes

/-- The bytes of a note record before its slot places. -/
theorem noteBytes_some (s : State) (n : NoteRecord) :
    noteBytes s (some n) =
      (be8 n.tag ++ be8 n.number ++ flag8 n.raised ++ orFF n.template ++ be8 n.slots.length)
        ++ slotPlaces s n.slots := rfl

theorem length_noteHead (n : NoteRecord) :
    (be8 n.tag ++ be8 n.number ++ flag8 n.raised ++ orFF n.template ++ be8 n.slots.length).length = 5 := rfl

/-- The groups of a station's record, the fingering unit's in four parts. -/
def stationGroups (s : State) (i : StationId) : List (List Byte) :=
  [engineBytes (s.station i), settingBytes (s.station i).settings, breathBytes (s.station i).breath,
   be32 (s.station i).fingering.snapshot.toNat ++ be32 (s.station i).fingering.changed.toNat
    ++ be16 (s.station i).fingering.settle.code,
   flag8 (s.station i).fingering.note.isSome ++ flag8 (s.station i).fingering.onsetPending,
   currentBytes s (s.station i).fingering.current,
   be8 (s.station i).fingering.misses,
   noteBytes s (s.note i),
   be8 (s.station i).settings.reserve ++ be8 (s.station i).settings.cap ++ be8 (stationCount s i),
   linkBytes (s.station i).link]

/-- The sizes of those groups. -/
def stationSizes : List Nat := [10, 26, 10, 10, 2, 5, 1, 14, 3, 11]

theorem stationRecord_eq_flatten (s : State) (i : StationId) :
    stationRecord s i = (stationGroups s i).flatten := by
  simp only [stationRecord, fingeringBytes, stationGroups, State.note, List.flatten_cons, List.flatten_nil,
    List.append_assoc, List.append_nil]

theorem length_stationGroups (s : State) (i : StationId) :
    (stationGroups s i).map List.length = stationSizes := by
  simp only [stationGroups, List.map_cons, List.map_nil, List.length_append, length_engineBytes, length_settingBytes,
    length_breathBytes, length_be32, length_be16, length_be8, length_flag8, length_currentBytes, length_noteBytes,
    length_linkBytes, stationSizes]

theorem length_stationRecord (s : State) (i : StationId) : (stationRecord s i).length = 92 := by
  rw [stationRecord_eq_flatten, List.length_flatten, length_stationGroups]
  rfl

theorem exec_stationRead_taken {s : State} {b clear : Byte} {i : StationId} (named : b.toNat = i.val)
    (taken : portTakes s (.stationRead b clear) = true) :
    exec (.stationRead b clear) s =
      .next ((nextDraw (if clear = 0 then s else s.updStation i Station.countersCleared)).answered .ok
        (stationRecord s i)) := by
  have rule : stationReadAnswer b clear s =
      ⟨.ok, stationRecord s i, nextDraw (if clear = 0 then s else s.updStation i Station.countersCleared)⟩ := by
    simp only [stationReadAnswer, nameOf_of_toNat named]
  have means := accept_taken (effect := stationReadAnswer b clear) taken
  rwa [rule] at means

/-- Settles O11: each group at its place. -/
theorem stationReadRecord : Obligations.StationReadRecord := by
  unfold Obligations.StationReadRecord
  intro s b clear i named taken
  have group {n : Nat} {g : List Byte} (h : (stationGroups s i)[n]? = some g) :
      g <+: (stationRecord s i).drop ((stationSizes.take n).sum) :=
    stationRecord_eq_flatten s i ▸ group_prefix_drop (length_stationGroups s i) h
  have engine : engineBytes (s.station i) <+: (stationRecord s i).drop 0 := group (n := 0) rfl
  have settings : settingBytes (s.station i).settings <+: (stationRecord s i).drop 10 := group (n := 1) rfl
  have breath : breathBytes (s.station i).breath <+: (stationRecord s i).drop 36 := group (n := 2) rfl
  have keys : be32 (s.station i).fingering.snapshot.toNat ++ be32 (s.station i).fingering.changed.toNat
      ++ be16 (s.station i).fingering.settle.code <+: (stationRecord s i).drop 46 := group (n := 3) rfl
  have flags : flag8 (s.station i).fingering.note.isSome ++ flag8 (s.station i).fingering.onsetPending
      <+: (stationRecord s i).drop 56 := group (n := 4) rfl
  have current : currentBytes s (s.station i).fingering.current <+: (stationRecord s i).drop 58 :=
    group (n := 5) rfl
  have misses : be8 (s.station i).fingering.misses <+: (stationRecord s i).drop 63 := group (n := 6) rfl
  have note : noteBytes s (s.note i) <+: (stationRecord s i).drop 64 := group (n := 7) rfl
  have pool : be8 (s.station i).settings.reserve ++ be8 (s.station i).settings.cap ++ be8 (stationCount s i)
      <+: (stationRecord s i).drop 78 := group (n := 8) rfl
  have link : linkBytes (s.station i).link <+: (stationRecord s i).drop 81 := group (n := 9) rfl
  refine ⟨stationRecord s i, ?exec, length_stationRecord s i, take_group engine (length_engineBytes _), fun c hc => ?settings,
    ?breath, ?keys, take_group flags rfl, ?present, fun e he => ?current,
    getElem?_of_prefix_drop (j := 0) misses Nat.one_pos, fun n hn => ⟨?note, fun k x within slot => ?slot⟩,
    fun silent => ⟨?tag, ?template, ?count⟩, take_group pool rfl, take_group link (length_linkBytes _)⟩
  case exec =>
    rw [exec_stationRead_taken named taken]
    split <;> rfl
  case settings =>
    refine (take_group settings (length_settingBytes _)).trans ?_
    subst hc
    unfold settingBytes NoteMode.code Curve.code
    rfl
  case breath =>
    rw [take_group breath (length_breathBytes _), breathBytes]
    rfl
  case keys =>
    rw [take_group (k := 10) keys rfl]
    cases (s.station i).fingering.settle <;> rfl
  case present =>
    rw [getElem?_of_prefix_drop (j := 0) current (by rw [length_currentBytes]; decide)]
    cases (s.station i).fingering.current <;> rfl
  case current =>
    rw [take_drop_of_prefix_drop (j := 1) current (Nat.le_of_eq (length_currentBytes _ _).symm), he]
    rfl
  case note =>
    rw [take_group_first note (by rw [length_noteBytes]; decide), hn, noteBytes_some,
      List.take_left' (length_noteHead n)]
  case slot =>
    have place : 69 + 3 * k = 64 + (5 + 3 * k) := by omega
    rw [place, take_drop_of_prefix_drop note (by rw [length_noteBytes]; omega), hn, noteBytes_some, ← List.drop_drop,
      List.drop_left' (length_noteHead n), take_drop_slotPlaces s within slot, slotBytes]
    cases x.state <;> rfl
  case tag =>
    rw [getElem?_of_prefix_drop (a := 64) (j := 0) note (by rw [length_noteBytes]; decide), silent]
    rfl
  case template =>
    rw [getElem?_of_prefix_drop (a := 64) (j := 3) note (by rw [length_noteBytes]; decide), silent]
    rfl
  case count =>
    rw [getElem?_of_prefix_drop (a := 64) (j := 4) note (by rw [length_noteBytes]; decide), silent]
    rfl

end Sys2Proof.Machine
end

section
/-! What a resolution and the work after it can write of a station: of the fingering unit all but snapshot and settle
timer, of the breath state RAISED alone. -/

namespace Sys2Proof.Machine

/-- Station y is x but for what a resolution and the layer conditions write. -/
def Resolved (x y : Station) : Prop :=
  ∃ raised changed onset current note misses, y = { x with
    breath := { x.breath with ind := { x.breath.ind with raised := raised } }
    fingering := { x.fingering with
      changed := changed, onsetPending := onset, current := current, note := note, misses := misses } }

namespace Resolved
variable {x y z : Station}

theorem rfl : Resolved x x := ⟨_, _, _, _, _, _, Eq.refl _⟩

theorem trans (h : Resolved x y) (k : Resolved y z) : Resolved x z := by
  obtain ⟨_, _, _, _, _, _, h⟩ := h
  obtain ⟨_, _, _, _, _, _, k⟩ := k
  subst h k
  exact ⟨_, _, _, _, _, _, Eq.refl _⟩

theorem state (h : Resolved x y) : y.state = x.state := by obtain ⟨_, _, _, _, _, _, h⟩ := h; rw [h]

theorem stall (h : Resolved x y) : y.stall = x.stall := by obtain ⟨_, _, _, _, _, _, h⟩ := h; rw [h]

theorem link (h : Resolved x y) : y.link = x.link := by obtain ⟨_, _, _, _, _, _, h⟩ := h; rw [h]

end Resolved

/-- A station that is the same but for its slots' states. -/
theorem resolved_of_unslotted {x y : Station} (h : y.unslotted = x.unslotted) : Resolved x y := by
  obtain ⟨state, settings, keySense, breath, ⟨snapshot, changed, settle, onset, current, note, misses⟩, cls, keyCount,
    calib, restarts, stall, handed, link⟩ := x
  obtain ⟨state', settings', keySense', breath', ⟨snapshot', changed', settle', onset', current', note', misses'⟩, cls',
    keyCount', calib', restarts', stall', handed', link'⟩ := y
  simp only [Station.unslotted, Station.mk.injEq, Fingering.mk.injEq] at h
  obtain ⟨rfl, rfl, rfl, rfl, ⟨rfl, rfl, rfl, rfl, rfl, -, rfl⟩, rfl, rfl, rfl, rfl, rfl, rfl, rfl⟩ := h
  exact ⟨_, _, _, _, _, _, rfl⟩

theorem SameStation.resolved {s t : State} {j : StationId} (h : SameStation s t j) :
    Resolved (s.station j) (t.station j) := resolved_of_unslotted h

theorem AllocatorFrame.sameStation {s t : State} (h : AllocatorFrame s t) (j : StationId) : SameStation s t j :=
  h.2.2.1 j

theorem AllocatorFrame.resolved {s t : State} (h : AllocatorFrame s t) (j : StationId) :
    Resolved (s.station j) (t.station j) := (h.sameStation j).resolved

section Work
variable (s : State) (i : StationId)

theorem resolved_noteOff : Resolved (s.station i) ((noteOff s i).station i) := by
  rw [noteOff_station]
  exact ⟨_, _, _, _, _, _, rfl⟩

theorem resolved_evalConditions : Resolved (s.station i) ((evalConditions s i).station i) :=
  (allocatorFrame_evalConditions s i).resolved i

theorem resolved_noteOn (number : Nat) (raised : Bool) :
    Resolved (s.station i) ((noteOn s i number raised).station i) := by
  refine Resolved.trans ?_ (resolved_evalConditions _ i)
  rw [updFingering_eq, station_updStation_self]
  exact ⟨_, _, _, _, _, _, rfl⟩

theorem resolved_updNote (f : NoteRecord → NoteRecord) : Resolved (s.station i) ((s.updNote i f).station i) := by
  rw [updNote_eq, station_updStation_self]
  exact ⟨_, _, _, _, _, _, rfl⟩

theorem resolved_actOnNote (number : Nat) (raised : Bool) :
    Resolved (s.station i) ((actOnNote s i number raised).station i) := by
  unfold actOnNote
  split
  · split
    · exact resolved_noteOn s i number raised
    · exact .rfl
  · split
    · exact resolved_updNote s i _
    · split
      · exact ((resolved_updNote s i _).trans ((allocatorFrame_retune _ i).resolved i)).trans
          (resolved_evalConditions _ i)
      · exact (resolved_noteOff s i).trans (resolved_noteOn _ i number raised)

theorem resolved_resolution : Resolved (s.station i) ((resolution s i).station i) := by
  unfold resolution
  split
  · refine Resolved.trans ?_ (resolved_actOnNote _ i _ _)
    simp only [setRaised, updBreath_eq, updFingering_eq, station_updStation_self]
    exact ⟨_, _, _, _, _, _, rfl⟩
  · simp only [resolveMiss, setRaised, updBreath_eq, updFingering_eq, station_updStation_self, station_report]
    exact ⟨_, _, _, _, _, _, rfl⟩

/-- Finished work is a resolved station's, and for a frame its reply falls due. -/
theorem finishWork_frame (seq : Nat) : finishWork s i (.frame seq) = replyDue (evalConditions s i) i seq := rfl

theorem finishWork_expiry : finishWork s i .expiry = evalConditions s i := rfl

end Work

end Sys2Proof.Machine
end

section
/-! What STATION_SET stores (O14), and the tests it makes before (O15). -/

namespace Sys2Proof.Machine

/-! ### What the engine's work leaves of a station -/

/-- Of a station what is set or learned from outside: settings, key senses, class, key count, zero, lip centre and
link counters. -/
structure Config where
  settings  : Settings
  keySense  : Vector KeySense 32
  cls       : Option Nat
  keyCount  : Nat
  zero      : Nat
  lipCentre : Nat
  counters  : LinkCounters

/-- That part of a station. -/
def Station.config (x : Station) : Config :=
  ⟨x.settings, x.keySense, x.cls, x.keyCount, x.breath.zero, x.breath.lipCentre, x.link.counters⟩

theorem SameStation.config {s t : State} {j : StationId} (h : SameStation s t j) :
    (t.station j).config = (s.station j).config := by
  have same := congrArg Station.config h
  exact same

theorem SameStation.state {s t : State} {j : StationId} (h : SameStation s t j) :
    (t.station j).state = (s.station j).state := by
  have same := congrArg Station.state h
  exact same

theorem SameStation.breath {s t : State} {j : StationId} (h : SameStation s t j) :
    (t.station j).breath = (s.station j).breath := by
  have same := congrArg Station.breath h
  exact same

theorem SameStation.link {s t : State} {j : StationId} (h : SameStation s t j) :
    (t.station j).link = (s.station j).link := by
  have same := congrArg Station.link h
  exact same

theorem Resolved.config {x y : Station} (h : Resolved x y) : y.config = x.config := by
  obtain ⟨_, _, _, _, _, _, rfl⟩ := h
  rfl

section Engine
variable (s : State) (i : StationId)

theorem counters_queueReply (l : Link) (r : Reply) : (l.queueReply r).counters = l.counters := by
  unfold Link.queueReply
  split <;> rfl

theorem config_replyDue (seq : Nat) : ((replyDue s i seq).station i).config = (s.station i).config := by
  simp only [replyDue, station_updStation_self, Station.config, counters_queueReply]

theorem config_finishWork (w : StallWork) : ((finishWork s i w).station i).config = (s.station i).config := by
  refine Eq.trans ?_ (resolved_evalConditions s i).config
  cases w with
  | frame seq => exact config_replyDue _ i seq
  | expiry => rfl

theorem config_resumeStall : ((resumeStall s i).station i).config = (s.station i).config := by
  unfold resumeStall
  split
  · refine (config_finishWork _ i _).trans ((resolved_resolution _ i).config.trans ?_)
    rw [station_updStation_self]; rfl
  · rfl

theorem config_enterState (x : StationState) : ((enterState s i x).station i).config = (s.station i).config := by
  rw [enterState, station_updStation_self]
  split
  · rw [leaveLive_station]; rfl
  · rfl

theorem config_disableStation : ((disableStation s i).station i).config = (s.station i).config := by
  rw [← config_enterState s i .disabled, disableStation, station_unclip, station_updStation_self]
  rfl

theorem config_actOnEnable (old : Settings) :
    ((actOnEnable s i old).station i).config = (s.station i).config := by
  unfold actOnEnable
  split
  · exact config_disableStation s i
  · rw [enableStation, station_updStation_self]; rfl
  all_goals rfl

theorem config_settingsActOnBreath (old : Settings) :
    ((settingsActOnBreath s i old).station i).config = (s.station i).config := by
  have zero (ceiling range : Nat) (changed : Bool) (x : Breath) :
      (forgetOverblow changed (limitBend range (limitLevel ceiling x))).zero = x.zero := by
    unfold forgetOverblow limitBend limitLevel
    split <;> split <;> split <;> rfl
  have lipCentre (ceiling range : Nat) (changed : Bool) (x : Breath) :
      (forgetOverblow changed (limitBend range (limitLevel ceiling x))).lipCentre = x.lipCentre := by
    unfold forgetOverblow limitBend limitLevel
    split <;> split <;> split <;> rfl
  rw [settingsActOnBreath, station_updStation_self]
  simp only [Station.config, zero, lipCentre]

theorem config_actOnStall : ((actOnStall s i).station i).config = (s.station i).config := by
  unfold actOnStall
  split
  · rfl
  · exact config_resumeStall s i

end Engine

/-! ### The settings stored and acting -/

section Stored
variable (s : State) (i : StationId) (new : Settings)

/-- The part after steps 1 to 3 of R128: the settings stored, and all that they make the station do at once. -/
def settingsActed : State :=
  actOnStall (settingsActOnBreath
    (actOnEnable (s.updStation i fun x => { x with settings := new }) i (s.station i).settings) i
      (s.station i).settings) i

/-- Steps 4 and 5 of R128 are the voice allocator's. -/
theorem allocatorFrame_settingsActed : AllocatorFrame (settingsActed s i new) (applySettings s i new) := by
  have capped : ∀ w : State, AllocatorFrame w (actOnCap w i (s.station i).settings) := fun w => by
    unfold actOnCap
    split
    · exact allocatorFrame_lowerToCap w i
    · exact .refl w
  have served : ∀ w : State, AllocatorFrame w (actOnPool w (s.station i).settings new) := fun w => by
    unfold actOnPool
    split
    · exact .refl w
    · exact allocatorFrame_serveStarved w
  exact (capped _).trans (served _)

/-- With reserve and cap as they were the allocator has nothing to do. -/
theorem applySettings_of_samePool (reserve : (s.station i).settings.reserve = new.reserve)
    (cap : (s.station i).settings.cap = new.cap) : applySettings s i new = settingsActed s i new := by
  have stored : ((settingsActed s i new).station i).settings = new := by
    have kept := congrArg Config.settings ((config_actOnStall _ i).trans ((config_settingsActOnBreath _ i
      (s.station i).settings).trans (config_actOnEnable (s.updStation i fun x => { x with settings := new }) i
        (s.station i).settings)))
    rw [station_updStation_self] at kept
    exact kept
  have capped : actOnCap (settingsActed s i new) i (s.station i).settings = settingsActed s i new :=
    if_neg (by rw [stored, cap]; exact Nat.lt_irrefl _)
  change actOnPool (actOnCap (settingsActed s i new) i (s.station i).settings) _ _ = _
  rw [capped, actOnPool, if_pos ⟨reserve, cap⟩]

/-- A station's configuration after STATION_SET: its settings are the new ones. -/
theorem config_applySettings :
    ((applySettings s i new).station i).config = { (s.station i).config with settings := new } := by
  refine (((allocatorFrame_settingsActed s i new).sameStation i).config).trans ?_
  refine ((config_actOnStall _ i).trans ((config_settingsActOnBreath _ i _).trans (config_actOnEnable _ i _))).trans ?_
  rw [station_updStation_self]
  rfl

end Stored

/-! ### The stored values (R4, R44, R83, R109, R127) -/

theorem bne_zero_eq_decide (b : Byte) : (b != 0) = decide (b.toNat ≠ 0) := by
  rw [Bool.eq_iff_iff]
  simp [← BitVec.toNat_inj]

theorem eq_zero_iff_toNat (b : Byte) : b = 0 ↔ b.toNat = 0 := by
  simp [← BitVec.toNat_inj]

theorem max_one_min_eq_ite (top n : Nat) (h : 1 ≤ top) : max 1 (min top n) = if n = 0 then 1 else min top n := by
  split <;> omega

/-- The settings stored, in the words of the rules. -/
theorem settingsOf_eq (p : StationSetParams) (tm : TemplateId) (ch : ChartId) :
    settingsOf p tm ch =
      { enable := decide (p.enable.toNat ≠ 0)
        follow := decide (p.follow.toNat ≠ 0)
        spread := min 1023 p.spread.toNat
        template := tm
        chart := ch
        settle := min 63 p.settle.toNat
        mode := if p.mode.toNat = 0 then .legato else .retrigger
        glide := p.glide.toNat
        threshold := min 1023 p.threshold.toNat
        gain := p.gain.toNat
        curve := if p.curve.toNat = 0 then .root else .linear
        ceiling := if p.ceiling.toNat = 0 then 1 else min 1023 p.ceiling.toNat
        overblow := min 1023 p.overblow.toNat
        hysteresis := p.hysteresis.toNat
        deadZone := p.deadZone.toNat
        bendGain := p.bendGain.toNat
        bendRange := min 768 p.bendRange.toNat
        reserve := p.reserve.toNat
        cap := max p.reserve.toNat (if p.cap.toNat = 0 then 1 else min 32 p.cap.toNat)
        transpose := max (-48) (min 48 p.transpose.toInt)
        outGain := p.outGain.toNat } := by
  simp only [settingsOf, bne_zero_eq_decide, eq_zero_iff_toNat, max_one_min_eq_ite 1023 _ (by decide),
    max_one_min_eq_ite 32 _ (by decide), clampInt]

section Answers

variable {s : State} {p : StationSetParams} {i : StationId} {tm : TemplateId} {ch : ChartId}

/-- A STATION_SET that passes its tests is answered by whether a setting was clamped. -/
theorem exec_stationSet_passed (named : p.station.toNat = i.val) (template : p.template.toNat = tm.val)
    (chart : p.chart.toNat = ch.val) (fits : p.reserve.toNat + otherReserves s i ≤ 32)
    (taken : portTakes s (.stationSet p) = true) :
    exec (.stationSet p) s =
      .next ((applySettings s i (settingsOf p tm ch)).answered
        (okOr (settingsClamped p (settingsOf p tm ch))) []) := by
  have rule : stationSetAnswer p s =
      ⟨okOr (settingsClamped p (settingsOf p tm ch)), [], applySettings s i (settingsOf p tm ch)⟩ := by
    unfold stationSetAnswer
    rw [nameOf_of_toNat named, nameOf_of_toNat template, nameOf_of_toNat chart]
    dsimp only
    rw [if_neg (Nat.not_lt.2 fits)]
  have means : exec (.stationSet p) s = accept s 0x03 (stationSetBytes p) (stationSetAnswer p) := rfl
  have taken : takesCommand s 0x03 (stationSetBytes p) = true := taken
  rw [means, accept_taken taken, rule]

theorem okOr_cases (b : Bool) : okOr b = .ok ∨ okOr b = .adjusted := by
  cases b
  · exact .inl rfl
  · exact .inr rfl

/-- A STATION_SET that fails one of its tests is refused with RANGE. -/
theorem exec_stationSet_refused (named : p.station.toNat = i.val)
    (fails : 16 ≤ p.template.toNat ∨ 8 ≤ p.chart.toNat ∨ 32 < p.reserve.toNat + otherReserves s i)
    (taken : portTakes s (.stationSet p) = true) : exec (.stationSet p) s = .next (s.answered .range []) := by
  refine exec_refused rfl taken ?_
  unfold stationSetAnswer
  rw [nameOf_of_toNat named]
  dsimp only
  split
  · rfl
  · next tm template =>
    split
    · rfl
    · next ch chart =>
      have template := toNat_of_nameOf template
      have chart := toNat_of_nameOf chart
      exact if_pos (by omega)

end Answers

/-- Settles O14: the configuration the station holds afterwards, and the engine's frame. -/
theorem stationSetStoresTheSettings : Obligations.StationSetStoresTheSettings := by
  unfold Obligations.StationSetStoresTheSettings
  intro s p i tm ch named template chart fits taken
  refine ⟨applySettings s i (settingsOf p tm ch), _, exec_stationSet_passed named template chart fits taken,
    okOr_cases _, ?frame, ?settings⟩
  case frame =>
    have frame := engineFrame_applySettings s i (settingsOf p tm ch)
    have disables : (settingsOf p tm ch).enable = false ↔ p.enable.toNat = 0 := by simp [settingsOf_eq]
    simp only [disables] at frame
    exact frame
  case settings =>
    have config := config_applySettings s i (settingsOf p tm ch)
    rw [settingsOf_eq] at config ⊢
    exact ⟨congrArg Config.settings config, congrArg Config.keySense config, congrArg Config.cls config,
      congrArg Config.keyCount config, congrArg Config.zero config, congrArg Config.lipCentre config,
      congrArg Config.counters config⟩

/-! ### Whether a field was clamped (R128) -/

/-- Records of groups of the same sizes are equal exactly where the groups are. -/
theorem flatten_eq_flatten_iff {a b : List (List Byte)} (sizes : a.map List.length = b.map List.length) :
    a.flatten = b.flatten ↔ a = b := by
  refine ⟨fun h => ?_, fun h => h ▸ rfl⟩
  induction a generalizing b with
  | nil => exact (List.map_eq_nil_iff.1 sizes.symm).symm
  | cons g a ih =>
    cases b with
    | nil => cases sizes
    | cons k b =>
      obtain ⟨size, sizes⟩ := List.cons.inj sizes
      obtain ⟨first, rest⟩ := List.append_inj h size
      rw [first, ih sizes rest]

/-- The setting bytes as stored, field by field. -/
def settingGroups (c : Settings) : List (List Byte) :=
  [flag8 c.enable, flag8 c.follow, be16 c.spread, be8 c.template.val, be8 c.chart.val, be8 c.settle, be8 c.mode.code,
   be8 c.glide, be16 c.threshold, be8 c.gain, be8 c.curve.code, be16 c.ceiling, be16 c.overblow, be8 c.hysteresis,
   be8 c.deadZone, be8 c.bendGain, be16 c.bendRange, be8 c.reserve, be8 c.cap, signed8 c.transpose, be8 c.outGain]

/-- The setting bytes as carried, field by field. -/
def paramGroups (p : StationSetParams) : List (List Byte) :=
  [[p.enable], [p.follow], be16 p.spread.toNat, [p.template], [p.chart], [p.settle], [p.mode], [p.glide],
   be16 p.threshold.toNat, [p.gain], [p.curve], be16 p.ceiling.toNat, be16 p.overblow.toNat, [p.hysteresis],
   [p.deadZone], [p.bendGain], be16 p.bendRange.toNat, [p.reserve], [p.cap], [p.transpose], [p.outGain]]

theorem settingBytes_eq_flatten (c : Settings) : settingBytes c = (settingGroups c).flatten := by
  unfold settingBytes settingGroups
  simp only [List.flatten_cons, List.flatten_nil, List.append_assoc, List.append_nil]

theorem settingParamBytes_eq_flatten (p : StationSetParams) : settingParamBytes p = (paramGroups p).flatten := rfl

theorem be16_eq_iff {m n : Nat} (hm : m < 65536) (hn : n < 65536) : be16 m = be16 n ↔ m = n := by
  refine ⟨fun h => ?_, fun h => h ▸ rfl⟩
  obtain ⟨high, low⟩ := List.cons.inj h
  have high := congrArg BitVec.toNat high
  have low := congrArg BitVec.toNat (List.cons.inj low).1
  simp only [BitVec.toNat_ofNat] at high low
  omega

theorem be8_eq_iff {n : Nat} {b : Byte} (h : n < 256) : be8 n = [b] ↔ n = b.toNat := by
  rw [be8, List.singleton_inj, ← BitVec.toNat_inj, BitVec.toNat_ofNat, Nat.mod_eq_of_lt h]

theorem be8_toNat (b : Byte) : be8 b.toNat = [b] := by rw [be8, BitVec.ofNat_toNat, BitVec.setWidth_eq]

theorem be8_modeCode (b : Byte) :
    be8 (if b = 0 then NoteMode.legato else NoteMode.retrigger).code = flag8 (b != 0) := by
  by_cases h : b = 0
  · subst h; rfl
  · rw [if_neg h, bne_iff_ne.2 h]; rfl

theorem be8_curveCode (b : Byte) : be8 (if b = 0 then Curve.root else Curve.linear).code = flag8 (b != 0) := by
  by_cases h : b = 0
  · subst h; rfl
  · rw [if_neg h, bne_iff_ne.2 h]; rfl

/-- A signed byte is that of its value brought into a range exactly where the value lies there. -/
theorem signed8_clamp_eq_iff (b : Byte) {lo hi : Int} (low : -128 ≤ lo) (high : hi ≤ 127) (le : lo ≤ hi) :
    signed8 (clampInt lo hi b.toInt) = [b] ↔ lo ≤ b.toInt ∧ b.toInt ≤ hi := by
  rw [signed8, List.singleton_inj, ← BitVec.toInt_inj, BitVec.toInt_ofInt, clampInt]
  have same : (max lo (min hi b.toInt)).bmod (2 ^ 8) = max lo (min hi b.toInt) := by
    rw [Int.bmod_eq_of_le] <;> omega
  omega

/-- The stored bytes are those carried exactly where every field lies within its range and the cap is no lower than
the reserve. -/
theorem settingBytes_eq_iff {p : StationSetParams} {tm : TemplateId} {ch : ChartId}
    (template : p.template.toNat = tm.val) (chart : p.chart.toNat = ch.val) (reserve : p.reserve.toNat ≤ 32) :
    settingBytes (settingsOf p tm ch) = settingParamBytes p ↔
      p.enable.toNat ≤ 1 ∧ p.follow.toNat ≤ 1 ∧ p.spread.toNat ≤ 1023 ∧ p.settle.toNat ≤ 63 ∧ p.mode.toNat ≤ 1
        ∧ p.threshold.toNat ≤ 1023 ∧ p.curve.toNat ≤ 1 ∧ (1 ≤ p.ceiling.toNat ∧ p.ceiling.toNat ≤ 1023)
        ∧ p.overblow.toNat ≤ 1023 ∧ p.bendRange.toNat ≤ 768
        ∧ (1 ≤ p.cap.toNat ∧ p.cap.toNat ≤ 32 ∧ p.reserve.toNat ≤ p.cap.toNat)
        ∧ (-48 ≤ p.transpose.toInt ∧ p.transpose.toInt ≤ 48) := by
  have halves (x : Half) (top : Nat) : be16 (min top x.toNat) = be16 x.toNat ↔ x.toNat ≤ top := by
    have := x.isLt
    rw [be16_eq_iff (by omega) (by omega)]
    omega
  have ceiling : be16 (max 1 (min 1023 p.ceiling.toNat)) = be16 p.ceiling.toNat ↔
      1 ≤ p.ceiling.toNat ∧ p.ceiling.toNat ≤ 1023 := by
    have := p.ceiling.isLt
    rw [be16_eq_iff (by omega) (by omega)]
    omega
  have cap : be8 (max p.reserve.toNat (max 1 (min 32 p.cap.toNat))) = [p.cap] ↔
      1 ≤ p.cap.toNat ∧ p.cap.toNat ≤ 32 ∧ p.reserve.toNat ≤ p.cap.toNat := by
    rw [be8_eq_iff (by omega)]
    omega
  rw [settingBytes_eq_flatten, settingParamBytes_eq_flatten, flatten_eq_flatten_iff (a := settingGroups _) (b := paramGroups _) rfl]
  simp only [settingGroups, paramGroups, settingsOf, List.cons.injEq, and_true, flag8_ne_zero_eq_iff, be8_modeCode,
    be8_curveCode, be8_toNat, true_and, halves, ceiling, cap,
    signed8_clamp_eq_iff p.transpose (lo := -48) (hi := 48) (by decide) (by decide) (by decide), ← template, ← chart,
    be8_min_eq_iff p.settle (top := 63) (by decide)]

/-- A field lies outside its range, or the cap below the reserve (R128). -/
def ClampedSetting (p : StationSetParams) : Prop :=
  1 < p.enable.toNat ∨ 1 < p.follow.toNat ∨ 1023 < p.spread.toNat
    ∨ 63 < p.settle.toNat ∨ 1 < p.mode.toNat ∨ 1023 < p.threshold.toNat
    ∨ 1 < p.curve.toNat ∨ p.ceiling.toNat = 0 ∨ 1023 < p.ceiling.toNat
    ∨ 1023 < p.overblow.toNat ∨ 768 < p.bendRange.toNat ∨ p.cap.toNat = 0
    ∨ 32 < p.cap.toNat ∨ p.cap.toNat < p.reserve.toNat
    ∨ p.transpose.toInt < -48 ∨ 48 < p.transpose.toInt

theorem settingsClamped_iff {p : StationSetParams} {tm : TemplateId} {ch : ChartId}
    (template : p.template.toNat = tm.val) (chart : p.chart.toNat = ch.val) (reserve : p.reserve.toNat ≤ 32) :
    settingsClamped p (settingsOf p tm ch) = true ↔ ClampedSetting p := by
  rw [settingsClamped, bne_iff_ne, ne_eq, settingBytes_eq_iff template chart reserve, ClampedSetting]
  omega

theorem okOr_eq_ite (b : Bool) (q : Prop) [Decidable q] (h : b = true ↔ q) :
    okOr b = if q then .adjusted else .ok := by
  simp only [okOr, h]

/-- Settles O15. -/
theorem stationSetTestsAndClamps : Obligations.StationSetTestsAndClamps := by
  unfold Obligations.StationSetTestsAndClamps
  intro s p i named taken
  refine ⟨fun fails => exec_stationSet_refused named fails taken, fun template chart fits => ?_⟩
  have passed := exec_stationSet_passed (tm := ⟨p.template.toNat, template⟩) (ch := ⟨p.chart.toNat, chart⟩) named rfl
    rfl fits taken
  have reserve : p.reserve.toNat ≤ 32 := by omega
  have clamped := settingsClamped_iff (tm := ⟨p.template.toNat, template⟩) (ch := ⟨p.chart.toNat, chart⟩) rfl rfl reserve
  unfold ClampedSetting at clamped
  rw [okOr_eq_ite _ _ clamped] at passed
  exact ⟨_, passed⟩

end Sys2Proof.Machine
end

section
/-! A STATION_SET that changes the enable setting (O16), and what it does at once to the breath state (O17). -/

namespace Sys2Proof.Machine

section Acting

variable {s : State} {i : StationId} {new : Settings}

/-- The settings stored, and step 1 of R128. -/
def settingsStored (s : State) (i : StationId) (new : Settings) : State :=
  actOnEnable (s.updStation i fun x => { x with settings := new }) i (s.station i).settings

theorem resumeStall_of_none (h : (s.station i).stall = none) : resumeStall s i = s := by
  simp only [resumeStall, h]

theorem actOnStall_of_none (h : (s.station i).stall = none) : actOnStall s i = s := by
  unfold actOnStall
  split
  · rfl
  · exact resumeStall_of_none h

theorem stall_settingsActOnBreath (s : State) (i : StationId) (old : Settings) :
    ((settingsActOnBreath s i old).station i).stall = (s.station i).stall := by
  rw [settingsActOnBreath, station_updStation_self]

/-- With no work held step 3 of R128 has nothing to do. -/
theorem settingsActed_of_free (h : ((settingsStored s i new).station i).stall = none) :
    settingsActed s i new = settingsActOnBreath (settingsStored s i new) i (s.station i).settings :=
  actOnStall_of_none ((stall_settingsActOnBreath _ i _).trans h)

/-- A breath state at rest is left so by the settings. -/
theorem station_settingsActOnBreath_atRest (old : Settings) (h : (s.station i).breath = (s.station i).breath.atRest) :
    (settingsActOnBreath s i old).station i = s.station i := by
  rw [settingsActOnBreath, station_updStation_self, actOnBreath_atRest _ _ _ h]

/-! ### Disabling -/

theorem settingsStored_of_disables (was : (s.station i).settings.enable = true) (now : new.enable = false) :
    settingsStored s i new = disableStation (s.updStation i fun x => { x with settings := new }) i := by
  rw [settingsStored, actOnEnable, station_updStation_self, was, now]

/-- A station as its disabling leaves it, its settings the new ones. -/
def Station.disabledWith (x : Station) (new : Settings) : Station :=
  { x with
    settings := new
    state := .disabled
    stall := none
    breath := x.breath.atRest
    fingering := x.fingering.atRest
    calib := Calibration.fresh
    syncHanded := false
    link := x.link.disabled }

theorem station_settingsStored_of_disables (was : (s.station i).settings.enable = true) (now : new.enable = false)
    (rest : (s.station i).restOk) : (settingsStored s i new).station i = (s.station i).disabledWith new := by
  have stored : ((s.updStation i fun x => { x with settings := new }).station i).restOk := by
    rw [station_updStation_self]
    exact rest
  rw [settingsStored_of_disables was now, station_disableStation stored, station_updStation_self]
  rfl

theorem settingsActed_of_disables (was : (s.station i).settings.enable = true) (now : new.enable = false)
    (rest : (s.station i).restOk) :
    settingsActed s i new = settingsActOnBreath (settingsStored s i new) i (s.station i).settings :=
  settingsActed_of_free (by rw [station_settingsStored_of_disables was now rest]; rfl)

theorem station_settingsActed_of_disables (was : (s.station i).settings.enable = true) (now : new.enable = false)
    (rest : (s.station i).restOk) : (settingsActed s i new).station i = (s.station i).disabledWith new := by
  have stored := station_settingsStored_of_disables was now rest
  rw [settingsActed_of_disables was now rest, station_settingsActOnBreath_atRest _ (by rw [stored]; rfl), stored]

/-- The voice allocator then finds no note at the station. -/
theorem station_applySettings_of_disables (was : (s.station i).settings.enable = true) (now : new.enable = false)
    (rest : (s.station i).restOk) : (applySettings s i new).station i = (s.station i).disabledWith new := by
  have acted := station_settingsActed_of_disables was now rest
  rw [station_eq_of_sameStation ((allocatorFrame_settingsActed s i new).sameStation i) (by rw [acted]; rfl), acted]

theorem NoteEnds.unclip {t : State} (h : NoteEnds s t i) (j : StationId) : NoteEnds s (t.unclip j) i := h

theorem noteEnds_settingsActed (was : (s.station i).settings.enable = true) (now : new.enable = false)
    (rest : (s.station i).restOk) :
    NoteEnds s (settingsActed s i new) i ∧ (settingsActed s i new).faults = s.faults := by
  have stored : ((s.updStation i fun x => { x with settings := new }).station i).restOk := by
    rw [station_updStation_self]
    exact rest
  rw [settingsActed_of_disables was now rest, settingsStored_of_disables was now, settingsActOnBreath, disableStation]
  refine ⟨NoteEnds.of_updStation (f := fun x => { x with settings := new }) rfl ?_, ?_⟩
  · exact ((((noteEnds_enterState _ i _ stored).updStation _).unclip i).updStation _)
  · rw [faults_updStation, faults_unclip, faults_updStation, enterState_faults, faults_updStation]

/-- The clip state of a station that is disabled shows unsaturated. -/
theorem audio_applySettings_of_disables (was : (s.station i).settings.enable = true) (now : new.enable = false) :
    (applySettings s i new).audio = { s.audio with clip := s.audio.clip.set i false } := by
  have frame := engineFrame_applySettings s i new
  rw [if_pos ⟨was, now⟩] at frame
  obtain ⟨-, ⟨-, -, -, -, audio, -, -⟩, -⟩ := frame
  rw [audio, audio_unclip]

/-! ### Enabling -/

theorem settingsStored_of_enables (was : (s.station i).settings.enable = false) (now : new.enable = true) :
    settingsStored s i new = s.updStation i fun x => { x with settings := new, state := .offline } := by
  rw [settingsStored, actOnEnable, station_updStation_self, was, now]
  exact updStation_updStation s i _ _

/-! ### A station that keeps its enable setting -/

theorem settingsStored_of_same (same : new.enable = (s.station i).settings.enable) :
    settingsStored s i new = s.updStation i fun x => { x with settings := new } := by
  rw [settingsStored, actOnEnable, station_updStation_self, same]
  cases (s.station i).settings.enable <;> rfl

/-- What the settings do at once to a published breath state, in the words of the rules (R14, R16, R18). -/
theorem actOnBreath_eq_actedOn (x : Breath) (ceiling range : Nat) (changed : Bool) :
    forgetOverblow changed (limitBend range (limitLevel ceiling x)) = x.actedOn ceiling range changed := by
  obtain ⟨z, lipCentre, level, bend, ⟨gate, borrow, excess, clip, bendInd, raised⟩, history, run⟩ := x
  have limited : limitLevel ceiling ⟨z, lipCentre, level, bend, ⟨gate, borrow, excess, clip, bendInd, raised⟩,
      history, run⟩ = ⟨z, lipCentre, min level ceiling, bend, ⟨gate, borrow, excess,
        clip || decide (ceiling < level), bendInd, raised⟩, history, run⟩ := by
    unfold limitLevel
    split
    · next above => simp [above, Nat.le_of_lt above]
    · next within => simp [within, Nat.not_lt.1 within]
  have bent (l : Nat) (c : Bool) : limitBend range ⟨z, lipCentre, l, bend, ⟨gate, borrow, excess, c, bendInd, raised⟩,
      history, run⟩ = ⟨z, lipCentre, l, max (-(range : Int)) (min range bend), ⟨gate, borrow, excess, c,
        bendInd && !decide (range = 0 ∧ bend ≠ 0), raised⟩, history, run⟩ := by
    unfold limitBend
    split
    · next above =>
      have bent : bend ≠ 0 := by rintro rfl; simp at above
      simp [clampInt, bent, bne, Bool.beq_eq_decide_eq]
    · next within =>
      have within : bend.natAbs ≤ range := Nat.not_lt.1 within
      have same : max (-(range : Int)) (min range bend) = bend := by omega
      have notBoth : ¬(range = 0 ∧ bend ≠ 0) := by omega
      simp [same, notBoth]
  rw [limited, bent]
  cases changed <;> simp [forgetOverblow, Breath.actedOn]

end Acting

/-- Settles O16: the disabled station is at rest with no note, so that the allocator leaves it; an enabled one is
OFFLINE, and the allocator leaves all but its slots. -/
theorem disableAndEnable : Obligations.DisableAndEnable := by
  unfold Obligations.DisableAndEnable
  intro s p i named taken template chart fits
  obtain ⟨new, hnew⟩ : ∃ new, new = settingsOf p ⟨p.template.toNat, template⟩ ⟨p.chart.toNat, chart⟩ := ⟨_, rfl⟩
  have means := exec_stationSet_passed (tm := ⟨_, template⟩) (ch := ⟨_, chart⟩) named rfl rfl fits taken
  have enable : new.enable = decide (p.enable.toNat ≠ 0) := by rw [hnew, settingsOf_eq]
  have config := config_applySettings s i new
  rw [← hnew] at means
  refine ⟨fun was disables rest => ?disable, fun was enables free => ?enable⟩
  case disable =>
    have now : new.enable = false := by simp [enable, disables]
    have station := station_applySettings_of_disables was now rest
    refine ⟨applySettings s i new, _, means, by rw [station]; rfl, by rw [station]; rfl, by rw [station]; rfl,
      by rw [station]; rfl, by rw [station]; rfl, by rw [station]; rfl, audio_applySettings_of_disables was now,
      fun reserve cap => ?_, by rw [station]; rfl, by rw [station]; rfl, by rw [station]; rfl, by rw [station]; rfl⟩
    have newReserve : new.reserve = p.reserve.toNat := by rw [hnew, settingsOf_eq]
    have newCap : ((applySettings s i new).station i).settings.cap = new.cap :=
      congrArg (fun c : Config => c.settings.cap) config
    rw [applySettings_of_samePool s i new (by rw [newReserve, reserve]) (cap.symm.trans newCap)]
    exact noteEnds_settingsActed was now rest
  case enable =>
    have now : new.enable = true := by simp [enable, enables]
    have stored := settingsStored_of_enables was now
    have same := (allocatorFrame_settingsActed s i new).sameStation i
    have acted := settingsActed_of_free (s := s) (i := i) (new := new)
      (by rw [stored, station_updStation_self]; exact free)
    refine ⟨applySettings s i new, _, means, ?_, ?_, congrArg Config.keySense config, congrArg Config.keyCount config,
      congrArg Config.cls config⟩
    · rw [same.state, acted, stored, settingsActOnBreath, station_updStation_self, station_updStation_self]
    · rw [same.link, acted, stored, settingsActOnBreath, station_updStation_self, station_updStation_self]

/-- Settles O17. -/
theorem loweredSettingsActAtOnce : Obligations.LoweredSettingsActAtOnce := by
  unfold Obligations.LoweredSettingsActAtOnce
  intro s p i named taken template chart fits enabled free
  obtain ⟨new, hnew⟩ : ∃ new, new = settingsOf p ⟨p.template.toNat, template⟩ ⟨p.chart.toNat, chart⟩ := ⟨_, rfl⟩
  have means := exec_stationSet_passed (tm := ⟨_, template⟩) (ch := ⟨_, chart⟩) named rfl rfl fits taken
  rw [← hnew] at means
  have stored := settingsStored_of_same (s := s) (i := i) (new := new) (by rw [enabled, hnew, settingsOf_eq])
  have same := (allocatorFrame_settingsActed s i new).sameStation i
  have acted := settingsActed_of_free (s := s) (i := i) (new := new)
    (by rw [stored, station_updStation_self]; exact free)
  refine ⟨applySettings s i new, _, means, ?state, fun ceiling range hc hr => ?breath⟩
  case state => rw [same.state, acted, stored, settingsActOnBreath, station_updStation_self, station_updStation_self]
  case breath =>
    rw [same.breath, acted, stored, settingsActOnBreath, station_updStation_self, station_updStation_self]
    dsimp only
    rw [actOnBreath_eq_actedOn, hc, hr, hnew, settingsOf_eq]
    congr 1
    rw [Bool.eq_iff_iff, bne_iff_ne, decide_eq_true_iff]
    exact ne_comm

end Sys2Proof.Machine
end

section
/-! KEYSENSE_SET, STATION_RESTART, PANIC (O18 to O20) and the refusals of chart commands (O21). -/

namespace Sys2Proof.Machine

/-! ### KEYSENSE_SET (R45) -/

theorem toNat_extract_two (b : Byte) (j : Nat) : (b.extractLsb' (2 * j) 2).toNat = b.toNat / 4 ^ j % 4 := by
  rw [BitVec.extractLsb'_toNat, Nat.shiftRight_eq_div_pow, Nat.pow_mul]

/-- Key 4m + j takes its sense from two bits of byte m. -/
theorem senseTable_getElem (senses : Vector Byte 8) (m : Fin 8) (j : Fin 4) (within : 4 * m.val + j.val < 32) :
    (senseTable senses)[4 * m.val + j.val] = senseOf (senses[m].extractLsb' (2 * j.val) 2).toNat := by
  have byte : (4 * m.val + j.val) / 4 = m.val := by omega
  have pair : (4 * m.val + j.val) % 4 = j.val := by omega
  rw [toNat_extract_two]
  simp [senseTable, byte, pair]

theorem exec_keysenseSet_named {s : State} {b : Byte} {senses : Vector Byte 8} {i : StationId}
    (named : b.toNat = i.val) (taken : portTakes s (.keysenseSet b senses) = true) :
    exec (.keysenseSet b senses) s =
      .next ((s.updStation i fun x => { x with keySense := senseTable senses }).answered .ok []) := by
  have means : exec (.keysenseSet b senses) s = accept s 0x04 (b :: senses.toList) (keysenseSetAnswer b senses) := rfl
  have taken : takesCommand s 0x04 (b :: senses.toList) = true := taken
  rw [means, accept_taken taken, keysenseSetAnswer, nameOf_of_toNat named]

/-- Settles O18. -/
theorem keysenseSetReplacesTheTable : Obligations.KeysenseSetReplacesTheTable := by
  unfold Obligations.KeysenseSetReplacesTheTable
  intro s b senses i named taken
  refine ⟨senseTable senses, exec_keysenseSet_named named taken, fun m j => ?_⟩
  rw [senseTable_getElem senses m j (by omega)]
  rfl

/-! ### STATION_RESTART (R137) -/

section Restart
variable {s : State} {b : Byte} {i : StationId}

theorem exec_stationRestart_named (named : b.toNat = i.val) (taken : portTakes s (.stationRestart b) = true) :
    exec (.stationRestart b) s = .next ((restartStation s i).answered .ok []) := by
  have means : exec (.stationRestart b) s = accept s 0x05 [b] (stationRestartAnswer b) := rfl
  have taken : takesCommand s 0x05 [b] = true := taken
  rw [means, accept_taken taken, stationRestartAnswer, nameOf_of_toNat named]

theorem restartStation_idle (h : (s.station i).state = .disabled ∨ (s.station i).state = .offline) :
    restartStation s i = s := by
  rcases h with h | h <;> simp only [restartStation, h]

theorem restartStation_synced (h : (s.station i).state = .synced) : restartStation s i = reopenWindow s i := by
  simp only [restartStation, h]

theorem restartStation_running
    (h : (s.station i).state = .calibrating ∨ (s.station i).state = .live ∨ (s.station i).state = .lost) :
    restartStation s i = reopenWindow (becomeSynced s i) i := by
  rcases h with h | h | h <;> simp only [restartStation, h]

theorem noteEnds_becomeSynced (h : (s.station i).restOk) : NoteEnds s (becomeSynced s i) i :=
  (noteEnds_enterState s i .synced h).updStation _

theorem faults_becomeSynced (s : State) (i : StationId) : (becomeSynced s i).faults = s.faults :=
  enterState_faults s i .synced

end Restart

/-- Settles O19: the three groups of states. -/
theorem stationRestartByState : Obligations.StationRestartByState := by
  unfold Obligations.StationRestartByState
  intro s b i named taken
  have means := exec_stationRestart_named named taken
  refine ⟨fun idle => ?idle, fun synced => ?synced, fun running rest => ?running⟩
  case idle => rw [means, restartStation_idle idle]
  case synced =>
    rw [means, restartStation_synced synced]
    rfl
  case running =>
    rw [restartStation_running running] at means
    refine ⟨_, means, (engineFrame_becomeSynced s i).trans (engineFrame_updStation _ i _), faults_becomeSynced s i,
      (noteEnds_becomeSynced rest).updStation _, ?_⟩
    rw [reopenWindow, updLink_eq, station_updStation_self, station_becomeSynced rest]

/-! ### PANIC (R102) -/

/-- The part as PANIC leaves it. -/
def panicked (s : State) : State := { panicPool s with stations := s.stations.map Station.panicked }

theorem exec_panic_taken {s : State} (taken : portTakes s .panic = true) :
    exec .panic s = .next ((panicked s).answered .ok []) := accept_taken taken

theorem voice_panicked (s : State) (v : VoiceId) : (panicked s).voice v = (s.voice v).panicked := by
  simp [State.voice, panicked, panicPool]

theorem station_panicked (s : State) (i : StationId) : (panicked s).station i = (s.station i).panicked :=
  station_map (panicPool s) Station.panicked i

theorem panicked_eq (x : Voice) :
    x.panicked = (match x.state with
      | .sounding | .releasing =>
        { x with state := .draining, owner := none, target := x.base, glide := .stopped, completionDue := false }
      | .free | .draining | .faulted => x) := by
  unfold Voice.panicked Voice.toDrain
  cases h : x.state <;> rfl

/-- With no claim and no voice SOUNDING or RELEASING no station has a count. -/
theorem stationCount_panicked (s : State) (i : StationId) : stationCount (panicked s) i = 0 := by
  have unclaimed (v : VoiceId) : claimOf (panicked s) v = none := rfl
  rw [stationCount, List.countP_eq_zero]
  intro v _
  rw [countsTo, unclaimed, voice_panicked, panicked_eq]
  cases h : (s.voice v).state <;> simp [h]

/-- Settles O20. -/
theorem panicDrainsThePool : Obligations.PanicDrainsThePool := by
  unfold Obligations.PanicDrainsThePool
  intro s taken
  refine ⟨panicked s, exec_panic_taken taken, ⟨rfl, rfl, rfl, rfl⟩, ⟨rfl, rfl, rfl, rfl, rfl, rfl, rfl⟩, rfl, rfl,
    ⟨rfl, rfl, rfl⟩, stationCount_panicked s, station_panicked s,
    fun v => (voice_panicked s v).trans (panicked_eq _)⟩

/-! ### The refusals of chart commands (R31) -/

section Refusals

variable {s : State} {cmd b : Byte} {k : ChartId} {posOk : Nat → Bool} {refused grows clamped : Bool}
  {work : Nat → Nat} {edit : List Entry → List Entry}

theorem editCommand_busy (h : s.charts.edit ≠ none) :
    editCommand s cmd b posOk refused grows clamped work edit = refuse s .busy :=
  if_pos (Option.isSome_iff_ne_none.2 h)

theorem editCommand_badPosition (idle : s.charts.edit = none) (named : b.toNat = k.val)
    (position : posOk s.charts.lengths[k] = false) :
    editCommand s cmd b posOk refused grows clamped work edit = refuse s .range := by
  simp [editCommand, idle, nameOf_of_toNat named, -Fin.getElem_fin, position]

theorem editCommand_badEntry (idle : s.charts.edit = none) (named : b.toNat = k.val) (bad : refused = true) :
    editCommand s cmd b posOk refused grows clamped work edit = refuse s .range := by
  simp [editCommand, idle, nameOf_of_toNat named, bad]

theorem editCommand_full (idle : s.charts.edit = none) (named : b.toNat = k.val)
    (position : posOk s.charts.lengths[k] = true) (passes : refused = false)
    (full : 128 ≤ s.charts.lengths[k] ∨ s.charts.freeCells = 0) :
    editCommand s cmd b posOk refused true clamped work edit = refuse s .full := by
  simp [editCommand, idle, nameOf_of_toNat named, -Fin.getElem_fin, position, passes, full]

theorem entryRefused_eq_true {e : EntryParams} (h : ¬ EntryPasses e) : entryRefused e = true := by
  rw [← Bool.not_eq_false, entryRefused_false_iff]
  exact h

end Refusals

/-- Settles O21: R31's tests one by one, for each of the commands that meet them. -/
theorem chartCommandRefusals : Obligations.ChartCommandRefusals := by
  unfold Obligations.ChartCommandRefusals
  refine ⟨fun s c b p e busy hc taken => ?busy, fun s c b p e k idle named taken hc => ?range,
    fun s c b p e k idle named taken passes full hc => ?full⟩
  case busy =>
    obtain rfl | rfl | rfl | rfl | rfl | rfl := hc
    case inr.inr.inr.inr.inr => exact exec_refused rfl taken (chartReadAnswer_busy busy)
    all_goals exact exec_refused rfl taken (editCommand_busy busy)
  case range =>
    obtain ⟨above, rfl⟩ | ⟨above, rfl | rfl⟩ | ⟨fails, rfl | rfl | rfl⟩ := hc
    · exact exec_refused rfl taken (editCommand_badPosition idle named (decide_eq_false (by omega)))
    · exact exec_refused rfl taken (editCommand_badPosition idle named (decide_eq_false (by omega)))
    · exact exec_refused rfl taken (editCommand_badPosition idle named (decide_eq_false (by omega)))
    all_goals exact exec_refused rfl taken (editCommand_badEntry idle named (entryRefused_eq_true fails))
  case full =>
    obtain rfl | ⟨within, rfl⟩ := hc
    · exact exec_refused rfl taken (editCommand_full idle named rfl (entryRefused_eq_false passes) full)
    · exact exec_refused rfl taken
        (editCommand_full idle named (decide_eq_true within) (entryRefused_eq_false passes) full)

end Sys2Proof.Machine
end

section
/-! The completion of an edit and the lookups it lets stalled stations make (O24). -/

namespace Sys2Proof.Machine

/-! ### An order of the stations -/

section InOrder
variable {n : Nat} {all : List (Fin n)}

theorem inOrder_cons (a : Fin n) (l all : List (Fin n)) :
    inOrder (a :: l) all = a :: (inOrder l all).filter (· ≠ a) := by
  simp only [inOrder, List.reverse_cons, List.foldl_append, List.foldl_cons, List.foldl_nil]

theorem mem_inOrder (l : List (Fin n)) {x : Fin n} (h : x ∈ all) : x ∈ inOrder l all := by
  induction l with
  | nil => exact h
  | cons a l ih =>
    rw [inOrder_cons, List.mem_cons, List.mem_filter]
    by_cases same : x = a
    · exact .inl same
    · exact .inr ⟨ih, decide_eq_true same⟩

theorem nodup_inOrder (l : List (Fin n)) (h : all.Nodup) : (inOrder l all).Nodup := by
  induction l with
  | nil => exact h
  | cons a l ih =>
    rw [inOrder_cons, List.nodup_cons]
    exact ⟨by simp, ih.filter _⟩

theorem prefix_inOrder {l : List (Fin n)} (h : l.Nodup) (all : List (Fin n)) : l <+: inOrder l all := by
  induction l with
  | nil => exact List.nil_prefix
  | cons a l ih =>
    obtain ⟨absent, nodup⟩ := List.nodup_cons.1 h
    have kept : l.filter (· ≠ a) = l :=
      List.filter_eq_self.2 fun x hx => decide_eq_true fun same => absent (same ▸ hx)
    have filtered := (ih nodup).filter (· ≠ a)
    rw [kept] at filtered
    rw [inOrder_cons, List.prefix_cons_inj]
    exact filtered

end InOrder

theorem mem_allStations (i : StationId) : i ∈ allStations := List.mem_finRange i

theorem nodup_allStations : allStations.Nodup := List.nodup_finRange 4

/-! ### A stalled lookup made -/

section Resume
variable {s : State} {i : StationId}

theorem resumeStall_of_some {w : StallWork} (h : (s.station i).stall = some w) :
    resumeStall s i = finishWork (resolution (s.updStation i fun x => { x with stall := none }) i) i w := by
  simp only [resumeStall, h]

theorem endsWithReply_replyDue (s : State) (i : StationId) (seq : Nat) : EndsWithReply s (replyDue s i seq) i seq :=
  ⟨replyOf (s.station i) seq, isReply_replyOf _ _, rfl⟩

theorem stall_finishWork (s : State) (i : StationId) (w : StallWork) :
    ((finishWork s i w).station i).stall = (s.station i).stall := by
  rw [← (resolved_evalConditions s i).stall]
  cases w with
  | frame seq => rw [finishWork_frame, replyDue, station_updStation_self]
  | expiry => rw [finishWork_expiry]

theorem stall_resumeStall (s : State) (i : StationId) : ((resumeStall s i).station i).stall = none := by
  cases h : (s.station i).stall with
  | none => rw [resumeStall_of_none h, h]
  | some w => rw [resumeStall_of_some h, stall_finishWork, (resolved_resolution _ i).stall, station_updStation_self]

theorem SameStation.stall {t : State} {j : StationId} (h : SameStation s t j) :
    (t.station j).stall = (s.station j).stall := h.resolved.stall

theorem SameStation.refl (s : State) (j : StationId) : SameStation s s j := rfl

theorem SameStation.trans {t u : State} {j : StationId} (h : SameStation s t j) (k : SameStation t u j) :
    SameStation s u j := Eq.trans k h

/-- The lookups of stalled stations leave the device and the stores, and a station that was not stalled. -/
theorem sameDevice_resumeStalls (l : List StationId) (s : State) : SameDevice s (l.foldl resumeStall s) := by
  induction l generalizing s with
  | nil => exact ⟨rfl, rfl, rfl, rfl, rfl, rfl, rfl⟩
  | cons i l ih =>
    obtain ⟨-, ⟨h1, h2, h3, h4, h5, h6, h7⟩, -⟩ := engineFrame_resumeStall s i
    obtain ⟨k1, k2, k3, k4, k5, k6, k7⟩ := ih (resumeStall s i)
    exact ⟨k1.trans h1, k2.trans h2, k3.trans h3, k4.trans h4, k5.trans h5, k6.trans h6, k7.trans h7⟩

theorem sameStation_resumeStall {j : StationId} (h : (s.station j).stall = none) : SameStation s (resumeStall s i) j := by
  by_cases same : j = i
  · subst same
    rw [resumeStall_of_none h]
    exact .refl s j
  · exact (engineFrame_resumeStall s i).2.2.1 j same

theorem sameStation_resumeStalls (l : List StationId) {s : State} {j : StationId} (h : (s.station j).stall = none) :
    SameStation s (l.foldl resumeStall s) j := by
  induction l generalizing s with
  | nil => exact .refl s j
  | cons i l ih =>
    have one : SameStation s (resumeStall s i) j := sameStation_resumeStall h
    exact one.trans (ih (one.stall.trans h))

/-- A station among those that make their lookups is not stalled afterwards. -/
theorem stall_resumeStalls {l : List StationId} {j : StationId} (h : j ∈ l) (s : State) :
    ((l.foldl resumeStall s).station j).stall = none := by
  induction l generalizing s with
  | nil => cases h
  | cons i l ih =>
    rw [List.foldl_cons]
    rcases List.mem_cons.1 h with same | later
    · subst same
      have free := stall_resumeStall s j
      exact (sameStation_resumeStalls l free).stall.trans free
    · exact ih later _

theorem resumeStalls_of_free (l : List StationId) {s : State} (h : ∀ j, (s.station j).stall = none) :
    l.foldl resumeStall s = s := by
  induction l with
  | nil => rfl
  | cons i l ih => rw [List.foldl_cons, resumeStall_of_none (h i), ih]

end Resume

/-! ### The completion -/

theorem complete_eq {x : ChartStore} {e : Edit} (h : x.edit = some e) :
    x.complete = { x with lists := x.lists.set e.chart e.result, edit := none } := by
  simp only [ChartStore.complete, h]

theorem exec_editCompletion {s : State} {e : Edit} (h : s.charts.edit = some e) (order : List StationId) :
    exec (.editCompletion order) s =
      .next ((inOrder order allStations).foldl resumeStall { s with charts := s.charts.complete }) :=
  if_pos (by rw [h]; rfl)

/-- Settles O24: the new list, and then one station after the other. -/
theorem editCompletionSwapsTheList : Obligations.EditCompletionSwapsTheList := by
  unfold Obligations.EditCompletionSwapsTheList
  refine ⟨fun s e order edited => ?completion, fun s i free => resumeStall_of_none free,
    fun s u i w stalled hu => ⟨fun hw => ?expiry, fun seq hw => ?frame⟩⟩
  case expiry => rw [resumeStall_of_some stalled, ← hu, hw, finishWork_expiry]
  case frame =>
    rw [resumeStall_of_some stalled, ← hu, hw, finishWork_frame]
    exact endsWithReply_replyDue _ i seq
  case completion =>
    obtain ⟨u, hu⟩ : ∃ u : State, u = { s with charts := s.charts.complete } := ⟨_, rfl⟩
    have means := exec_editCompletion edited order
    rw [← hu] at means
    obtain ⟨charts, templates, waves, memory⟩ := sameStores_resumeStalls (inOrder order allStations) u
    have completed : ((inOrder order allStations).foldl resumeStall u).charts = s.charts.complete := by rw [charts, hu]
    have device := sameDevice_resumeStalls (inOrder order allStations) u
    refine ⟨_, means, ?same, fun c other => ?other, ?counts, ⟨by rw [templates, hu], by rw [waves, hu],
      by rw [memory, hu]⟩, by rw [hu] at device ⊢; exact device, fun i => stall_resumeStalls
        (mem_inOrder order (mem_allStations i)) u, fun i free => ?unstalled, fun free => ?allFree,
      inOrder order allStations, nodup_inOrder order nodup_allStations,
      fun i => mem_inOrder order (mem_allStations i), fun nodup => prefix_inOrder nodup allStations, ?fold⟩
    case same => rw [completed, complete_eq edited]; simp
    case other =>
      have ne : e.chart.val ≠ c.val := fun h => other (Fin.ext h.symm)
      rw [completed, complete_eq edited]
      simp [ne]
    case counts => rw [completed, complete_eq edited]; exact ⟨rfl, rfl, rfl⟩
    case unstalled =>
      have same := sameStation_resumeStalls (inOrder order allStations) (s := u) (j := i) (by rw [hu]; exact free)
      rw [hu] at same ⊢
      exact same
    case allFree =>
      rw [completed, resumeStalls_of_free _ (fun j => by rw [hu]; exact free j), hu]
    case fold => rw [completed, hu]

end Sys2Proof.Machine
end

section
/-! Lookups (O26), and the template store's commands (O27, O28). -/

namespace Sys2Proof.Machine

/-! ### Lookups (R29) -/

/-- Two words agree in a set of bits. -/
theorem eq_iff_getLsbD (x y : Word) : x = y ↔ ∀ k : KeyId, x.getLsbD k.val = y.getLsbD k.val :=
  ⟨fun h _ => h ▸ rfl, fun h => BitVec.eq_of_getLsbD_eq fun i hi => h ⟨i, hi⟩⟩

theorem fits_iff (e : Entry) (snapshot : Word) : e.fits snapshot = true ↔ FitsKeys e snapshot := by
  rw [Entry.fits, Bool.and_eq_true, beq_iff_eq, beq_iff_eq, eq_iff_getLsbD, eq_iff_getLsbD]
  refine and_congr (forall_congr' fun k => ?_) (forall_congr' fun k => ?_)
  · rw [BitVec.getLsbD_and]
    cases snapshot.getLsbD k.val <;> cases e.pattern.getLsbD k.val <;> decide
  · have within : k.val < 32 := k.isLt
    have clear : (0 : Word).getLsbD k.val = false := BitVec.getLsbD_zero
    simp only [BitVec.getLsbD_and, BitVec.getLsbD_not, clear, within, decide_true, Bool.true_and]
    cases snapshot.getLsbD k.val <;> cases e.mask.getLsbD k.val <;> cases e.pattern.getLsbD k.val <;> decide

theorem lookup_eq_none_iff (l : List Entry) (snapshot : Word) :
    lookup l snapshot = none ↔ ∀ e ∈ l, ¬ FitsKeys e snapshot := by
  rw [lookup, Option.map_eq_none_iff, List.find?_eq_none]
  simp only [fits_iff]

theorem lookup_eq_some_iff (l : List Entry) (snapshot : Word) (g : CurrentEntry) :
    lookup l snapshot = some g ↔
      ∃ (n : Nat) (e : Entry), l[n]? = some e ∧ FitsKeys e snapshot ∧ e.gives = g
        ∧ ∀ (m : Nat) (e' : Entry), m < n → l[m]? = some e' → ¬ FitsKeys e' snapshot := by
  rw [lookup, Option.map_eq_some_iff]
  constructor
  · rintro ⟨e, found, gives⟩
    obtain ⟨fits, n, within, at_n, before⟩ := List.find?_eq_some_iff_getElem.1 found
    refine ⟨n, e, by rw [List.getElem?_eq_getElem within, at_n], (fits_iff e snapshot).1 fits, gives,
      fun m e' less at_m fits' => ?_⟩
    obtain ⟨_, at_m⟩ := List.getElem?_eq_some_iff.1 at_m
    have unfit := before m less
    rw [at_m, (fits_iff e' snapshot).2 fits'] at unfit
    cases unfit
  · rintro ⟨n, e, at_n, fits, gives, before⟩
    obtain ⟨within, at_n⟩ := List.getElem?_eq_some_iff.1 at_n
    refine ⟨e, List.find?_eq_some_iff_getElem.2 ⟨(fits_iff e snapshot).2 fits, n, within, at_n, fun m less => ?_⟩, gives⟩
    have unfit := before m l[m] less (List.getElem?_eq_getElem _)
    rw [← fits_iff] at unfit
    simpa using unfit

/-- Settles O26. -/
theorem lookupFindsTheFirstFit : Obligations.LookupFindsTheFirstFit := fun l snapshot =>
  ⟨lookup_eq_none_iff l snapshot, lookup_eq_some_iff l snapshot⟩

/-! ### The layer a record defines (R69, R70) -/

section Layers
variable {s : State} {l : LayerParams} {x : Layer}

theorem waveAOk_iff (s : State) (l : LayerParams) :
    waveAOk s l = true ↔ ∃ a : WaveId, l.waveA.toNat = a.val ∧ s.waves[a] ≠ none := by
  unfold waveAOk
  constructor
  · intro h
    split at h
    · next a named => exact ⟨a, toNat_of_nameOf named, Option.isSome_iff_ne_none.1 h⟩
    · cases h
  · rintro ⟨a, named, defined⟩
    rw [nameOf_of_toNat named]
    exact Option.isSome_iff_ne_none.2 defined

theorem waveBOf_absent : waveBOf 0xFF = some none := rfl

theorem waveBOf_named {b : Byte} {w : WaveId} (h : b.toNat = w.val) : waveBOf b = some (some w) := by
  have present : b ≠ 0xFF := by
    rintro rfl
    have := w.isLt
    simp at h
    omega
  rw [waveBOf, if_neg present, nameOf_of_toNat h, Option.map_some]

theorem waveBOf_eq_some {b : Byte} {r : Option WaveId} (h : waveBOf b = some r) :
    r.map Fin.val = if b = 0xFF then none else some b.toNat := by
  unfold waveBOf at h
  split at h
  · next absent => cases h; rw [if_pos absent]; rfl
  · next present =>
    obtain ⟨w, named, rfl⟩ := Option.map_eq_some_iff.1 h
    rw [if_neg present, toNat_of_nameOf named, Option.map_some]

theorem waveBOk_iff (s : State) (l : LayerParams) :
    waveBOk s l = true ↔ l.waveB = 0xFF ∨ ∃ b : WaveId, l.waveB.toNat = b.val ∧ s.waves[b] ≠ none := by
  unfold waveBOk
  constructor
  · intro h
    split at h
    · next named =>
      have absent := waveBOf_eq_some named
      refine .inl (Classical.byContradiction fun present => ?_)
      rw [if_neg present] at absent
      cases absent
    · next w named =>
      have value := waveBOf_eq_some named
      split at value
      · cases value
      · exact .inr ⟨w, (Option.some.inj value).symm, Option.isSome_iff_ne_none.1 h⟩
    · cases h
  · rintro (absent | ⟨b, named, defined⟩)
    · rw [absent, waveBOf_absent]
    · rw [waveBOf_named named]
      exact Option.isSome_iff_ne_none.2 defined

theorem wavesPass_iff (s : State) (l : LayerParams) : WavesPass s l ↔ waveAOk s l = true ∧ waveBOk s l = true := by
  rw [WavesPass, waveAOk_iff, waveBOk_iff]

theorem isSome_layerOf (h : WavesPass s l) : (layerOf l).isSome = true := by
  obtain ⟨⟨a, named, -⟩, waveB⟩ := h
  have b : ∃ r, waveBOf l.waveB = some r := by
    rcases waveB with absent | ⟨b, named, -⟩
    · exact ⟨none, by rw [absent]; rfl⟩
    · exact ⟨some b, waveBOf_named named⟩
  obtain ⟨r, b⟩ := b
  rw [layerOf, nameOf_of_toNat named, b]
  rfl

theorem layerStoredFrom_of_layerOf (h : layerOf l = some x) : LayerStoredFrom l x := by
  unfold layerOf at h
  simp only [Option.bind_eq_bind, Option.bind_eq_some_iff, Option.pure_def, Option.some.injEq] at h
  obtain ⟨a, named, b, waveB, rfl⟩ := h
  refine ⟨(toNat_of_nameOf named).symm, waveBOf_eq_some waveB, rfl, rfl, rfl, rfl, ?mask, ?sense, ?attack, ?release⟩
  case mask => exact (BitVec.setWidth_eq_extractLsb' (by decide)).symm
  case sense => simp only [toneOf, eq_zero_iff_toNat]
  case attack => exact max_one_min_eq_ite 4095 _ (by decide)
  case release => exact max_one_min_eq_ite 4095 _ (by decide)

/-- The bytes of a layer's fields other than the waves, as stored and as carried. -/
def toneGroups (t : Tone) : List (List Byte) :=
  [signed8 t.transpose, signed8 t.fine, be8 t.level, be8 t.pan, be8 t.mask.toNat, be8 t.sense.code, be16 t.attack,
   be16 t.release]

def layerParamGroups (l : LayerParams) : List (List Byte) :=
  [[l.transpose], [l.fine], [l.level], [l.pan], [l.cond], [l.sense], be16 l.attack.toNat, be16 l.release.toNat]

theorem be8_senseCode (b : Byte) :
    be8 (if b = 0 then CondSense.any else CondSense.noneOf).code = flag8 (b != 0) := by
  by_cases h : b = 0
  · subst h; rfl
  · rw [if_neg h, bne_iff_ne.2 h]; rfl

theorem layerAdjusted_iff (l : LayerParams) : layerAdjusted l = true ↔ LayerAdjusts l := by
  have stored : toneBytes (toneOf l) = (toneGroups (toneOf l)).flatten := by
    simp only [toneBytes, toneGroups, List.flatten_cons, List.flatten_nil, List.append_assoc, List.append_nil]
  have carried : (layerParamBytes l).drop 2 = (layerParamGroups l).flatten := rfl
  have mask : be8 (l.cond.extractLsb' 0 4).toNat = [l.cond] ↔ l.cond.toNat < 16 := by
    rw [be8_eq_iff (by omega), BitVec.extractLsb'_toNat, Nat.shiftRight_zero]
    omega
  have ramp (x : Half) : be16 (max 1 (min 4095 x.toNat)) = be16 x.toNat ↔ 1 ≤ x.toNat ∧ x.toNat ≤ 4095 := by
    have := x.isLt
    rw [be16_eq_iff (by omega) (by omega)]
    omega
  have same : toneBytes (toneOf l) = (layerParamBytes l).drop 2 ↔
      (-48 ≤ l.transpose.toInt ∧ l.transpose.toInt ≤ 48) ∧ (-63 ≤ l.fine.toInt ∧ l.fine.toInt ≤ 63)
        ∧ l.pan.toNat ≤ 128 ∧ l.cond.toNat < 16 ∧ l.sense.toNat ≤ 1
        ∧ (1 ≤ l.attack.toNat ∧ l.attack.toNat ≤ 4095) ∧ 1 ≤ l.release.toNat ∧ l.release.toNat ≤ 4095 := by
    rw [stored, carried, flatten_eq_flatten_iff (a := toneGroups _) (b := layerParamGroups _) rfl]
    simp only [toneGroups, layerParamGroups, toneOf, List.cons.injEq, and_true, be8_toNat, true_and, mask, ramp,
      be8_senseCode, flag8_ne_zero_eq_iff, be8_min_eq_iff l.pan (top := 128) (by decide),
      signed8_clamp_eq_iff l.transpose (lo := -48) (hi := 48) (by decide) (by decide) (by decide),
      signed8_clamp_eq_iff l.fine (lo := -63) (hi := 63) (by decide) (by decide) (by decide)]
  rw [layerAdjusted, bne_iff_ne, ne_eq, same, LayerAdjusts]
  omega

/-- Where every record defines a layer, the template holds them one for one. -/
theorem filterMap_layerOf {ls : List LayerParams} (h : ∀ l ∈ ls, (layerOf l).isSome = true) :
    (ls.filterMap layerOf).length = ls.length
      ∧ ∀ m : Nat, (ls.filterMap layerOf)[m]? = ls[m]?.bind layerOf := by
  induction ls with
  | nil => simp
  | cons l ls ih =>
    obtain ⟨length, entries⟩ := ih fun l hl => h l (List.mem_cons_of_mem _ hl)
    obtain ⟨x, defines⟩ := Option.isSome_iff_exists.1 (h l List.mem_cons_self)
    rw [List.filterMap_cons_some defines]
    refine ⟨by rw [List.length_cons, List.length_cons, length], fun m => ?_⟩
    cases m with
    | zero => simp [defines]
    | succ m => simpa using entries m

end Layers

/-! ### TEMPLATE_SET -/

section TemplateSet
variable {s : State} {b count : Byte} {l0 l1 l2 : LayerParams} {n : TemplateId}

theorem templateSetAnswer_named (named : b.toNat = n.val) :
    templateSetAnswer b count l0 l1 l2 s =
      if count.toNat = 0 ∨ 3 < count.toNat then refuse s .range
      else if !([l0, l1, l2].take count.toNat).all (waveAOk s) then refuse s .range
      else if !([l0, l1, l2].take count.toNat).all (waveBOk s) then refuse s .range
      else
        ⟨okOr (([l0, l1, l2].take count.toNat).any layerAdjusted), [],
          { s with templates := s.templates.set n (([l0, l1, l2].take count.toNat).filterMap layerOf) }⟩ := by
  simp only [templateSetAnswer, nameOf_of_toNat named]

end TemplateSet

/-- Settles O27. -/
theorem templateSetDefines : Obligations.TemplateSetDefines := by
  unfold Obligations.TemplateSetDefines
  intro s b count l0 l1 l2 n named taken
  have rule := templateSetAnswer_named (s := s) (count := count) (l0 := l0) (l1 := l1) (l2 := l2) named
  obtain ⟨ls, hls⟩ : ∃ ls, ls = [l0, l1, l2].take count.toNat := ⟨_, rfl⟩
  rw [← hls] at rule ⊢
  refine ⟨fun badCount => ?badCount, fun one three fails => ?badWave, fun one three passes => ?passes⟩
  case badCount => exact exec_refused rfl taken (rule.trans (if_pos badCount))
  case badWave =>
    obtain ⟨l, hl, fails⟩ := fails
    refine exec_refused rfl taken (rule.trans ?_)
    rw [if_neg (by omega)]
    rw [wavesPass_iff] at fails
    split
    · rfl
    · next waveA =>
      have waveA : waveAOk s l = true := by
        simp only [Bool.not_eq_true', Bool.not_eq_false, List.all_eq_true] at waveA
        exact waveA l hl
      have waveB : ls.all (waveBOk s) = false :=
        List.all_eq_false.2 ⟨l, hl, fun waveB => fails ⟨waveA, waveB⟩⟩
      rw [waveB]
      rfl
  case passes =>
    have waveA : ls.all (waveAOk s) = true :=
      List.all_eq_true.2 fun l hl => ((wavesPass_iff s l).1 (passes l hl)).1
    have waveB : ls.all (waveBOk s) = true :=
      List.all_eq_true.2 fun l hl => ((wavesPass_iff s l).1 (passes l hl)).2
    rw [if_neg (by omega), waveA, waveB] at rule
    have means : exec (.templateSet b count l0 l1 l2) s =
        accept s 0x20 (templateSetBytes b count l0 l1 l2) (templateSetAnswer b count l0 l1 l2) := rfl
    have taken : takesCommand s 0x20 (templateSetBytes b count l0 l1 l2) = true := taken
    obtain ⟨length, entries⟩ := filterMap_layerOf fun l hl => isSome_layerOf (passes l hl)
    refine ⟨ls.filterMap layerOf, okOr (ls.any layerAdjusted), ?_, ?_, fun m l x carried stored => ?_,
      fun adjusts => ?_, fun keeps => ?_⟩
    · rw [means, accept_taken taken, rule]
      rfl
    · rw [length, hls, List.length_take]
      exact Nat.min_eq_left three
    · rw [entries] at stored
      obtain ⟨l', at_m, defines⟩ := Option.bind_eq_some_iff.1 stored
      have same : l' = l := by
        rw [hls, List.getElem?_take] at at_m
        split at at_m
        · exact Option.some.inj (at_m.symm.trans carried)
        · cases at_m
      exact layerStoredFrom_of_layerOf (same ▸ defines)
    · obtain ⟨l, hl, adjusts⟩ := adjusts
      rw [List.any_eq_true.2 ⟨l, hl, (layerAdjusted_iff l).2 adjusts⟩]
      rfl
    · rw [List.any_eq_false.2 fun l hl adjusted => keeps l hl ((layerAdjusted_iff l).1 adjusted)]
      rfl

/-! ### TEMPLATE_READ and TEMPLATE_CLEAR -/

theorem length_layerBytes (l : Layer) : (layerBytes l).length = 12 := rfl

/-- Settles O28. -/
theorem templateReadAndClear : Obligations.TemplateReadAndClear := by
  unfold Obligations.TemplateReadAndClear
  intro s b n named
  refine ⟨fun taken three => ?read, fun taken => ?clear⟩
  case read =>
    have means : exec (.templateRead b) s = accept s 0x21 [b] (templateReadAnswer b) := rfl
    have taken : takesCommand s 0x21 [b] = true := taken
    rw [means, accept_taken taken, templateReadAnswer, nameOf_of_toNat named]
    refine ⟨templateRecord s.templates[n], rfl, ?length, ?state, rfl, fun m within => ?record⟩
    case length =>
      rw [templateRecord, List.length_append, length_padTo]
      rfl
    case state =>
      change some (BitVec.ofNat 8 (if s.templates[n] != [] then 1 else 0)) = _
      by_cases undefined : s.templates[n] = []
      · rw [undefined]; rfl
      · rw [bne_iff_ne.2 undefined, if_neg undefined]; rfl
    case record =>
      have head : (flag8 (s.templates[n] != []) ++ be8 s.templates[n].length).length = 2 := rfl
      rw [templateRecord, ← List.drop_drop, List.drop_left' head, take_drop_padTo_flatMap length_layerBytes _ _ (by omega)]
      cases s.templates[n][m]? <;> rfl
  case clear =>
    have means : exec (.templateClear b) s = accept s 0x22 [b] (templateClearAnswer b) := rfl
    have taken : takesCommand s 0x22 [b] = true := taken
    rw [means, accept_taken taken, templateClearAnswer, nameOf_of_toNat named]

end Sys2Proof.Machine
end

section
/-! Wave descriptors (O29) and runs of samples (O30). -/

namespace Sys2Proof.Machine

/-! ### Descriptors (R122, R123) -/

section References
variable (s : State) (w : WaveId)

theorem layerNames_iff (l : Layer) : l.names w = true ↔ l.waveA = w ∨ l.waveB = some w := by
  rw [Layer.names, Bool.or_eq_true, beq_iff_eq, beq_iff_eq]

theorem copyNames_iff (c : LayerCopy) :
    c.names w = true ↔ c.waveA.wave = w ∨ ∃ b, c.waveB = some b ∧ b.wave = w := by
  rw [LayerCopy.names, Bool.or_eq_true, beq_iff_eq, Option.any_eq_true]
  simp only [beq_iff_eq]

theorem voiceNames_iff (v : VoiceId) :
    voiceNames s w v = true ↔
      ((s.voice v).state = .sounding ∨ (s.voice v).state = .releasing ∨ (s.voice v).state = .draining)
        ∧ ∃ c, (s.voice v).copy = some c ∧ (c.waveA.wave = w ∨ ∃ b, c.waveB = some b ∧ b.wave = w) := by
  have named : ((s.voice v).copy.any fun c => c.names w) = true ↔
      ∃ c, (s.voice v).copy = some c ∧ (c.waveA.wave = w ∨ ∃ b, c.waveB = some b ∧ b.wave = w) := by
    simp only [Option.any_eq_true, copyNames_iff]
  rw [← named]
  unfold voiceNames
  cases (s.voice v).state <;> simp

theorem waveReferred_iff : waveReferred s w = true ↔ RefersTo s w := by
  have template : (s.templates.toList.any fun layers => layers.any fun l => l.names w) = true ↔
      ∃ n : TemplateId, ∃ l ∈ s.templates[n], l.waveA = w ∨ l.waveB = some w := by
    simp only [List.any_eq_true, layerNames_iff, Vector.mem_toList_iff, Vector.mem_iff_getElem]
    constructor
    · rintro ⟨layers, ⟨n, within, rfl⟩, l, hl, names⟩
      exact ⟨⟨n, within⟩, l, hl, names⟩
    · rintro ⟨n, l, hl, names⟩
      exact ⟨_, ⟨n.val, n.isLt, rfl⟩, l, hl, names⟩
  have voice : allVoices.any (voiceNames s w) = true ↔ ∃ v, voiceNames s w v = true := by
    simp [allVoices, List.any_eq_true]
  simp only [waveReferred, Bool.or_eq_true, template, voice, voiceNames_iff, RefersTo]

end References

section Descriptors
variable {s : State} {b k : Byte} {start : Half} {w : WaveId}

/-- A defined wave that is referred to (R122, R123). -/
theorem heldWave_iff : ((s.waves[w]).isSome && waveReferred s w) = true ↔ s.waves[w] ≠ none ∧ RefersTo s w := by
  rw [Bool.and_eq_true, waveReferred_iff, Option.isSome_iff_ne_none]

theorem heldWave_eq_true (defined : s.waves[w] ≠ none) (refers : RefersTo s w) :
    ((s.waves[w]).isSome && waveReferred s w) = true := heldWave_iff.2 ⟨defined, refers⟩

theorem heldWave_eq_false (h : s.waves[w] = none ∨ ¬ RefersTo s w) :
    ((s.waves[w]).isSome && waveReferred s w) = false := by
  rw [← Bool.not_eq_true, heldWave_iff]
  rintro ⟨defined, refers⟩
  exact h.elim defined (fun none => none refers)

theorem waveDefineAnswer_badRegion (named : b.toNat = w.val)
    (bad : k.toNat < 8 ∨ 12 < k.toNat ∨ 65536 < start.toNat + 2 ^ k.toNat) :
    waveDefineAnswer b start k s = refuse s .range := by
  unfold waveDefineAnswer
  rw [nameOf_of_toNat named]
  dsimp only
  split
  · rfl
  · exact if_pos (by omega)

theorem waveDefineAnswer_region (named : b.toNat = w.val) (low : 8 ≤ k.toNat) (high : k.toNat ≤ 12)
    (within : start.toNat + 2 ^ k.toNat ≤ 65536) :
    waveDefineAnswer b start k s =
      if (s.waves[w]).isSome && waveReferred s w then refuse s .inUse
      else ⟨.ok, [], { s with waves := s.waves.set w (some ⟨start.toNat, k.toNat⟩) }⟩ := by
  unfold waveDefineAnswer
  rw [nameOf_of_toNat named]
  dsimp only
  rw [if_neg (by omega), if_neg (by omega)]

theorem waveDeleteAnswer_named (named : b.toNat = w.val) :
    waveDeleteAnswer b s =
      if (s.waves[w]).isSome && waveReferred s w then refuse s .inUse
      else ⟨.ok, [], { s with waves := s.waves.set w none }⟩ := by
  simp only [waveDeleteAnswer, nameOf_of_toNat named]

end Descriptors

/-- Settles O29. -/
theorem waveDefineAndDelete : Obligations.WaveDefineAndDelete := by
  unfold Obligations.WaveDefineAndDelete
  intro s b k start w named
  refine ⟨fun taken => ⟨fun bad => exec_refused rfl taken (waveDefineAnswer_badRegion named bad),
    fun low high within => ⟨fun defined refers => ?inUse, fun free => ?defines⟩⟩,
    fun taken => ⟨fun defined refers => ?held, fun free => ?deletes⟩⟩
  case inUse =>
    refine exec_refused rfl taken ((waveDefineAnswer_region named low high within).trans ?_)
    rw [heldWave_eq_true defined refers, if_pos rfl]
  case defines =>
    have means : exec (.waveDefine b start k) s =
        accept s 0x30 (b :: (be16 start.toNat ++ [k])) (waveDefineAnswer b start k) := rfl
    have taken : takesCommand s 0x30 (b :: (be16 start.toNat ++ [k])) = true := taken
    rw [means, accept_taken taken, waveDefineAnswer_region named low high within, heldWave_eq_false free]
    rfl
  case held =>
    refine exec_refused rfl taken ((waveDeleteAnswer_named named).trans ?_)
    rw [heldWave_eq_true defined refers, if_pos rfl]
  case deletes =>
    have means : exec (.waveDelete b) s = accept s 0x33 [b] (waveDeleteAnswer b) := rfl
    have taken : takesCommand s 0x33 [b] = true := taken
    rw [means, accept_taken taken, waveDeleteAnswer_named named, heldWave_eq_false free]
    rfl

/-! ### Runs of samples (R124, R125) -/

/-- A sample and its parity are read from its three cells. -/
theorem sampleBits_congr {m m' : Memory} {a : Nat} (high : m.readCell (3 * a) = m'.readCell (3 * a))
    (low : m.readCell (3 * a + 1) = m'.readCell (3 * a + 1)) : m.sampleBits a = m'.sampleBits a := by
  rw [Memory.sampleBits, Memory.sampleBits, high, low]

theorem parityFailed_congr {m m' : Memory} {a : Nat} (h : m.readCell (3 * a + 2) = m'.readCell (3 * a + 2)) :
    m.parityFailed a = m'.parityFailed a := by
  rw [Memory.parityFailed, Memory.parityFailed, h]

theorem writeRun_cons (m : Memory) (a : Nat) (x : Half) (xs : List Half) :
    m.writeRun a (x :: xs) = (m.writeSample a x).writeRun (a + 1) xs := rfl

/-- Every sample of a stored run reads as it was carried, with good parity. -/
theorem read_writeRun {m : Memory} {a : Nat} {xs : List Half} (h : m.wf = true) (within : a + xs.length ≤ 65536)
    {k : Nat} {x : Half} (at_k : xs[k]? = some x) :
    (m.writeRun a xs).sampleBits (a + k) = x ∧ (m.writeRun a xs).parityFailed (a + k) = false := by
  induction xs generalizing m a k with
  | nil => cases at_k
  | cons y xs ih =>
    rw [List.length_cons] at within
    have below : a < 65536 := by omega
    have stored : (m.writeSample a y).wf = true := Memory.wf_writeSample y h below
    rw [writeRun_cons]
    cases k with
    | zero =>
      cases at_k
      have before (c : Nat) (hc : c < 3 * (a + 1)) :
          ((m.writeSample a x).writeRun (a + 1) xs).readCell c = (m.writeSample a x).readCell c :=
        Memory.readCell_writeRun xs stored (by omega) c (.inl hc)
      rw [Nat.add_zero a, sampleBits_congr (before (3 * a) (by omega)) (before (3 * a + 1) (by omega)),
        parityFailed_congr (before (3 * a + 2) (by omega)), Memory.sampleBits_writeSample x h below,
        Memory.parityFailed_writeSample x h below, if_pos rfl, if_pos rfl]
      exact ⟨rfl, rfl⟩
    | succ k =>
      have place : a + (k + 1) = a + 1 + k := by omega
      rw [place]
      exact ih stored (by omega) at_k

section Runs
variable {s : State} {start : Half} {count : Byte} {samples : List Half}

theorem runRefused_iff (start : Half) (count : Byte) :
    runRefused start count = true ↔ count.toNat = 0 ∨ 64 < count.toNat ∨ 65535 < start.toNat + count.toNat - 1 :=
  decide_eq_true_iff

theorem runRefused_eq_false (one : 1 ≤ count.toNat) (most : count.toNat ≤ 64)
    (within : start.toNat + count.toNat ≤ 65536) : runRefused start count = false := by
  rw [← Bool.not_eq_true, runRefused_iff]
  omega

theorem exec_waveWrite (whole : (Instr.waveWrite start count samples).wellFormed = true) (s : State) :
    exec (.waveWrite start count samples) s =
      accept s 0x31 (waveWriteBytes start count samples) (waveWriteAnswer start count samples) := if_pos whole

theorem length_sampleRecord (m : Memory) (a : Nat) : (sampleRecord m a).length = 3 := rfl

end Runs

/-- Settles O30. -/
theorem waveRunsAreWrittenAndRead : Obligations.WaveRunsAreWrittenAndRead := by
  unfold Obligations.WaveRunsAreWrittenAndRead
  refine ⟨fun s start count samples whole taken => ⟨fun bad => ?badWrite, fun sound one most within => ?write⟩,
    fun s start count taken => ⟨fun bad => ?badRead, fun one most within => ?read⟩⟩
  case badWrite =>
    exact exec_refused (exec_waveWrite whole s) taken (if_pos ((runRefused_iff start count).2 (by omega)))
  case write =>
    have taken : takesCommand s 0x31 (waveWriteBytes start count samples) = true := taken
    have length : samples.length = count.toNat := (beq_iff_eq.1 whole).trans (samplesFor_eq one most)
    have fits : start.toNat + samples.length ≤ 65536 := by omega
    refine ⟨s.memory.writeRun start.toNat samples, ?_, length, Memory.wf_writeRun samples sound fits,
      fun k x at_k => read_writeRun sound fits at_k,
      fun a outside => Memory.readCell_writeRun samples sound fits a (by omega)⟩
    rw [exec_waveWrite whole, accept_taken taken, waveWriteAnswer, runRefused_eq_false one most within]
    rfl
  case badRead => exact exec_refused rfl taken (if_pos ((runRefused_iff start count).2 bad))
  case read =>
    have means : exec (.waveRead start count) s = accept s 0x32 (be16 start.toNat ++ [count]) (waveReadAnswer start count) :=
      rfl
    have taken : takesCommand s 0x32 (be16 start.toNat ++ [count]) = true := taken
    have size (n : Nat) : (sampleRecord s.memory (start.toNat + n)).length = 3 := length_sampleRecord _ _
    rw [means, accept_taken taken, waveReadAnswer, runRefused_eq_false one most (by omega)]
    refine ⟨(List.range count.toNat).flatMap fun n => sampleRecord s.memory (start.toNat + n), rfl, ?_,
      fun k hk => ?_⟩
    · rw [length_flatMap_of_size size, List.length_range]
    · have entry : (List.range count.toNat)[k]? = some k := by
        rw [List.getElem?_eq_getElem (by rwa [List.length_range]), List.getElem_range]
      rw [← List.append_nil ((List.range count.toNat).flatMap _), take_drop_flatMap_append size entry, sampleRecord]
      cases s.memory.parityFailed (start.toNat + k) <;> rfl

end Sys2Proof.Machine
end

section
/-! The reset state meets the invariants (O60). -/

namespace Sys2Proof.Machine

theorem note_reset (i : StationId) : State.reset.note i = none := by
  rw [State.note, station_reset]
  rfl

theorem lives_reset (i : StationId) : (State.reset.station i).lifeOk := by
  rw [station_reset]
  exact lifeOk_reset

theorem poolOk_reset : PoolOk State.reset := by
  refine ⟨List.nodup_finRange 32, fun v => ?_, List.nodup_nil, fun v hv => absurd hv List.not_mem_nil⟩
  rw [voice_reset]
  exact ⟨fun _ => rfl, fun _ => List.mem_finRange v⟩

theorem slotsListed_reset : SlotsListed State.reset := by
  refine ⟨fun i n h => ?_, fun c hc => absurd hc List.not_mem_nil,
    fun e he => absurd he List.not_mem_nil, ⟨List.nodup_nil, List.nodup_nil⟩,
    fun i n x h => ?_, fun v h => ?_⟩
  · rw [note_reset] at h
    cases h
  · rw [note_reset] at h
    cases h
  · rw [voice_reset] at h
    cases h

theorem reservesOk_reset : ReservesOk State.reset := by
  simp only [ReservesOk, station_reset]
  exact ⟨by decide, fun _ => by decide⟩

theorem breathOk_reset : BreathOk State.reset := fun i => by
  rw [station_reset]
  exact ⟨by decide, by decide, by decide⟩

theorem tagsOk_reset : TagsOk State.reset := by
  refine ⟨by decide, fun i n h => ?_⟩
  rw [note_reset] at h
  cases h

theorem faultSetsOk_reset : FaultSetsOk State.reset := by
  have enabled : ∀ n < 16, (0x07FE : Half).getLsbD n = true → 1 ≤ n ∧ n ≤ 10 := by decide
  rintro n (flag | on | masked)
  · cases (BitVec.getLsbD_zero (i := n)).symm.trans flag
  · exact enabled n (BitVec.lt_of_getLsbD on) on
  · cases (BitVec.getLsbD_zero (i := n)).symm.trans masked

theorem storesOk_reset : StoresOk State.reset := by
  refine ⟨fun w r h => ?_, fun n => ?_⟩
  · simp [State.reset] at h
  · simp [State.reset]

theorem linksOk_reset : LinksOk State.reset := fun i => by
  rw [station_reset]
  refine ⟨nofun, trivial, nofun, nofun, nofun, nofun, nofun, by decide⟩

theorem clipsOk_reset : ClipsOk State.reset := fun i disabled => by
  rw [station_reset] at disabled
  cases disabled

theorem voicesOk_reset : VoicesOk State.reset := by
  refine ⟨fun v => ?_, fun i n x h => ?_⟩
  · rw [voice_reset]
    exact inRange_free
  · rw [note_reset] at h
    cases h

theorem capsHold_reset : CapsHold State.reset := by
  intro i
  rw [stationCount_of_free voice_reset]
  exact Nat.zero_le _

/-- Settles O60. -/
theorem resetMeetsTheInvariants : Obligations.ResetMeetsTheInvariants := by
  unfold Obligations.ResetMeetsTheInvariants
  exact ⟨rfl, chartsOk_reset, poolOk_reset, reservesOk_reset, capsHold_reset,
    fun i => ⟨(lives_reset i).enable, (lives_reset i).rest⟩, fun i => (lives_reset i).gate,
    fun i => (lives_reset i).silence, breathOk_reset, tagsOk_reset, faultSetsOk_reset, storesOk_reset, linksOk_reset,
    (by decide : (0 : Nat) < 256), clipsOk_reset, slotsListed_reset, voicesOk_reset⟩

end Sys2Proof.Machine
end

section
/-! The fault capture (O53). -/

namespace Sys2Proof.Machine

/-! ### Reports (R156) -/

section Take
variable {f : FaultCapture} {r : FaultRecord}

theorem take_of_disabled (h : f.enabled r.kind = false) : f.take r = f := by
  rw [FaultCapture.take, h]
  rfl

theorem take_of_empty (on : f.enabled r.kind = true) (empty : f.first = none) :
    f.take r = { f with count := f.count + 1, first := some r } := by
  rw [FaultCapture.take, if_pos on]
  split
  · rfl
  · next full => cases empty.symm.trans full

theorem take_of_full {q : FaultRecord} (on : f.enabled r.kind = true) (full : f.first = some q) :
    f.take r = { f with count := f.count + 1, flags := f.flags ||| r.kind.bit } := by
  rw [FaultCapture.take, if_pos on]
  split
  · next empty => cases full.symm.trans empty
  · rfl

end Take

section Report
variable {s : State} {k : FaultKind} (st : Option StationId) (vo : Option VoiceId) (tag : Option Nat) (detail : Word)

theorem report_of_disabled (off : s.faults.enabled k = false) : report s k st vo tag detail = s := by
  have stays : s.faults.take ⟨k, st, vo, tag, detail, s.timebase⟩ = s.faults := take_of_disabled off
  rw [report, stays]

theorem report_of_empty (on : s.faults.enabled k = true) (empty : s.faults.first = none) :
    report s k st vo tag detail =
      { s with
        faults := { s.faults with count := s.faults.count + 1, first := some ⟨k, st, vo, tag, detail, s.timebase⟩ } } := by
  have taken := take_of_empty (r := ⟨k, st, vo, tag, detail, s.timebase⟩) on empty
  rw [report, taken]

theorem report_of_full {q : FaultRecord} (on : s.faults.enabled k = true) (full : s.faults.first = some q) :
    report s k st vo tag detail =
      { s with faults := { s.faults with count := s.faults.count + 1, flags := s.faults.flags ||| k.bit } } := by
  have taken := take_of_full (r := ⟨k, st, vo, tag, detail, s.timebase⟩) on full
  rw [report, taken]

end Report

/-- A kind's set holds that kind alone (R169). -/
theorem getLsbD_kindBit (k : FaultKind) (n : Nat) : k.bit.getLsbD n = decide (n = k.number) := by
  by_cases h : n < 16
  · have small : ∀ m < 16, k.bit.getLsbD m = decide (m = k.number) := by cases k <;> decide
    exact small n h
  · have low : k.number ≤ 10 := by cases k <;> decide
    rw [BitVec.getLsbD_of_ge _ _ (by omega), eq_comm, decide_eq_false_iff_not]
    omega

/-! ### The alert (R158) -/

theorem ne_zero_iff_getLsbD (x : Half) : x ≠ 0 ↔ ∃ n, n < 16 ∧ x.getLsbD n = true := by
  constructor
  · intro nonzero
    refine Classical.byContradiction fun none => nonzero (BitVec.eq_of_getLsbD_eq fun n hn => ?_)
    have clear : x.getLsbD n ≠ true := fun set => none ⟨n, hn, set⟩
    exact (Bool.eq_false_iff.2 clear).trans BitVec.getLsbD_zero.symm
  · rintro ⟨n, -, set⟩ rfl
    cases (BitVec.getLsbD_zero (i := n)).symm.trans set

theorem unmasked_flags_iff (f : FaultCapture) : ((f.flags &&& ~~~f.mask) != 0) = true ↔
    ∃ n, n < 16 ∧ f.flags.getLsbD n = true ∧ f.mask.getLsbD n = false := by
  rw [bne_iff_ne, ne_zero_iff_getLsbD]
  refine exists_congr fun n => and_congr_right fun hn => ?_
  rw [BitVec.getLsbD_and, BitVec.getLsbD_not, Bool.and_eq_true, decide_eq_true hn, Bool.true_and, Bool.not_eq_true']

theorem alert_iff (f : FaultCapture) : f.alert = true ↔
    (∃ r, f.first = some r ∧ f.mask.getLsbD r.kind.number = false)
      ∨ ∃ n, n < 16 ∧ f.flags.getLsbD n = true ∧ f.mask.getLsbD n = false := by
  rw [FaultCapture.alert, Bool.or_eq_true, unmasked_flags_iff]
  cases f.first <;> simp

theorem alert_emptied (f : FaultCapture) : FaultCapture.alert { f with first := none, flags := 0 } = false := by
  simp [FaultCapture.alert]

/-! ### The kinds (R154, R157) -/

theorem getLsbD_kindSet (n : Nat) : kindSet.getLsbD n = decide (1 ≤ n ∧ n ≤ 10) := by
  by_cases h : n < 16
  · have small : ∀ m < 16, kindSet.getLsbD m = decide (1 ≤ m ∧ m ≤ 10) := by decide
    exact small n h
  · rw [BitVec.getLsbD_of_ge _ _ (by omega), eq_comm, decide_eq_false_iff_not]
    omega

theorem getLsbD_and_kindSet (x : Half) {n : Nat} (kind : 1 ≤ n ∧ n ≤ 10) :
    (x &&& kindSet).getLsbD n = x.getLsbD n := by
  rw [BitVec.getLsbD_and, getLsbD_kindSet, decide_eq_true kind, Bool.and_true]

theorem getLsbD_and_kindSet_of_dropped (x : Half) {n : Nat} (dropped : n = 0 ∨ 11 ≤ n) :
    (x &&& kindSet).getLsbD n = false := by
  rw [BitVec.getLsbD_and, getLsbD_kindSet, decide_eq_false (by omega), Bool.and_false]

/-- A set names a position that is dropped. -/
theorem dropped_iff (x : Half) :
    ((x &&& ~~~kindSet) != 0) = true ↔ ∃ n, (n = 0 ∨ 11 ≤ n) ∧ x.getLsbD n = true := by
  rw [bne_iff_ne, ne_zero_iff_getLsbD]
  refine exists_congr fun n => ?_
  rw [BitVec.getLsbD_and, BitVec.getLsbD_not, getLsbD_kindSet]
  constructor
  · rintro ⟨hn, h⟩
    simp only [Bool.and_eq_true, decide_eq_true hn, Bool.true_and, Bool.not_eq_true', decide_eq_false_iff_not] at h
    exact ⟨by omega, h.1⟩
  · rintro ⟨out, set⟩
    have hn : n < 16 := BitVec.lt_of_getLsbD set
    refine ⟨hn, ?_⟩
    rw [set, decide_eq_true hn, decide_eq_false (by omega)]
    rfl

theorem droppedAny_iff (x y : Half) : ((x &&& ~~~kindSet) != 0 || (y &&& ~~~kindSet) != 0) = true ↔
    ∃ n, (n = 0 ∨ 11 ≤ n) ∧ (x.getLsbD n = true ∨ y.getLsbD n = true) := by
  rw [Bool.or_eq_true, dropped_iff, dropped_iff]
  simp only [and_or_left, exists_or]

/-- Settles O53. -/
theorem faultsAreTakenAndCleared : Obligations.FaultsAreTakenAndCleared := by
  unfold Obligations.FaultsAreTakenAndCleared
  refine ⟨fun s k st vo tag detail => ⟨fun off => ?disabled, fun on empty => ?fills, fun f on full => ?flags⟩,
    alert_iff, fun s n taken => ⟨fun current => ?clears, fun other => ?stale⟩, fun s enable mask taken => ?policy⟩
  case disabled => exact report_of_disabled st vo tag detail off
  case fills => exact report_of_empty st vo tag detail on empty
  case flags =>
    refine ⟨s.faults.flags ||| k.bit, report_of_full st vo tag detail on full, fun n => ?_⟩
    rw [BitVec.getLsbD_or, getLsbD_kindBit]
  case clears =>
    have means : exec (.faultClear n) s = accept s 0x51 (be16 n.toNat) (faultClearAnswer n) := rfl
    have taken : takesCommand s 0x51 (be16 n.toNat) = true := taken
    refine ⟨{ s.faults with first := none, flags := 0 }, ?_, rfl, alert_emptied s.faults⟩
    rw [means, accept_taken taken, faultClearAnswer, if_pos current]
  case stale => exact exec_refused rfl taken (if_neg other)
  case policy =>
    have means : exec (.faultPolicy enable mask) s =
        accept s 0x53 (be16 enable.toNat ++ be16 mask.toNat) (faultPolicyAnswer enable mask) := rfl
    have taken : takesCommand s 0x53 (be16 enable.toNat ++ be16 mask.toNat) = true := taken
    refine ⟨enable &&& kindSet, mask &&& kindSet,
      okOr ((enable &&& ~~~kindSet) != 0 || (mask &&& ~~~kindSet) != 0), ?_,
      fun n low high => ⟨getLsbD_and_kindSet _ ⟨low, high⟩, getLsbD_and_kindSet _ ⟨low, high⟩⟩,
      fun n out => ⟨getLsbD_and_kindSet_of_dropped _ out, getLsbD_and_kindSet_of_dropped _ out⟩,
      fun dropped => if_pos ((droppedAny_iff enable mask).2 dropped), fun kept => if_neg fun dropped => ?_⟩
    · rw [means, accept_taken taken, faultPolicyAnswer]
    · obtain ⟨n, out, set⟩ := (droppedAny_iff enable mask).1 dropped
      obtain ⟨noEnable, noMask⟩ := kept n out
      rw [noEnable, noMask] at set
      rcases set with set | set <;> cases set

end Sys2Proof.Machine
end

section
/-! The breath computation (O47). -/

namespace Sys2Proof.Machine

theorem pressure_eq_sub (z b : Nat) : pressure z b = b - z := by
  unfold pressure
  split <;> omega

theorem gated_mul (threshold p gain : Nat) :
    gated threshold p * gain = if p ≤ threshold then 0 else (p - threshold) * gain := by
  rw [gated]
  split
  · exact Nat.zero_mul gain
  · rfl

theorem overblown_eq (x h p threshold level : Nat) (history : Bool) :
    overblown x h level (decide (threshold < p)) history =
      if x = 0 ∨ p ≤ threshold then false
      else if x ≤ level then true
      else if (level : Int) < (x : Int) - (h : Int) then false
      else history := by
  unfold overblown
  by_cases off : x = 0
  · rw [if_pos off, if_pos (.inl off)]
  · by_cases closed : p ≤ threshold
    · have shut : (!decide (threshold < p)) = true := by simpa using closed
      rw [if_neg off, if_pos shut, if_pos (.inr closed)]
    · have opened : ¬ (!decide (threshold < p)) = true := by simpa using closed
      rw [if_neg off, if_neg opened, if_neg (not_or.2 ⟨off, closed⟩)]

/-- A reading below the zero has no pressure, so that a borrowing computation is ungated (R8, R10, R19). -/
theorem borrowRunOf_indicatorsOf (c : Settings) (x : Breath) (b lip : Nat) :
    borrowRunOf x.borrowRun (indicatorsOf c x b lip) = if b < x.zero then x.borrowRun + 1 else 0 := by
  unfold borrowRunOf
  by_cases below : b < x.zero
  · have borrows : (indicatorsOf c x b lip).borrow = true := decide_eq_true below
    have none : pressure x.zero b = 0 := if_neg (by omega)
    have shut : (indicatorsOf c x b lip).gate = false := decide_eq_false (by rw [none]; exact Nat.not_lt_zero _)
    rw [borrows, shut, if_pos below]
    rfl
  · have level : (indicatorsOf c x b lip).borrow = false := decide_eq_false below
    rw [level, if_neg below]
    rfl

/-- Settles O47. -/
theorem breathComputation : Obligations.BreathComputation := by
  unfold Obligations.BreathComputation
  rintro c x _ b lip p q d rfl pressed curved rfl
  have hp : pressure x.zero b = p := (pressure_eq_sub x.zero b).trans pressed.symm
  have hq : curveValue c.curve (gated c.threshold (pressure x.zero b) * c.gain) = q := by
    rw [gated_mul, hp, curved]
  have clip : curveValue c.curve (gated c.threshold p * c.gain) = q := by rw [gated_mul, curved]
  have level : levelOf c x.zero b = min q c.ceiling := by rw [levelOf, hq]
  have run := borrowRunOf_indicatorsOf c x b lip
  refine ⟨level, rfl, ?_, rfl, rfl, ?_, ?_⟩
  · have bend : (bendOf (deflection x.lipCentre c.deadZone lip) c.bendGain c.bendRange != 0) =
        decide (bendOf (deflection x.lipCentre c.deadZone lip) c.bendGain c.bendRange ≠ 0) := by
      rw [bne, decide_not, Bool.beq_eq_decide_eq]
    simp only [breathStep, indicatorsOf, clip, level, hp, overblown_eq, bend]
  · simp only [breathStep, run]
    by_cases below : b < x.zero <;> by_cases full : x.borrowRun + 1 = 256 <;> simp [below, full]
  · simp only [breathStep, run]
    by_cases below : b < x.zero
    · simp only [below, true_and, if_true]
    · simp [below]

end Sys2Proof.Machine
end

section
/-! The reply transmitter (O40). -/

namespace Sys2Proof.Machine

/-! ### Replies one after another (R152) -/

section Replies
variable {s : State} {i : StationId}

theorem queueReply_of_none {l : Link} (h : l.sending = none) (r : Reply) :
    l.queueReply r = { l with sending := some ⟨r, 0, 0, l.bitTime, false⟩ } := by
  rw [Link.queueReply, h]
  rfl

theorem queueReply_of_some {l : Link} (h : l.sending ≠ none) (r : Reply) :
    l.queueReply r = { l with waiting := some r } := by
  obtain ⟨x, sending⟩ := Option.ne_none_iff_exists'.1 h
  rw [Link.queueReply, sending]

theorem exec_replyEnd_of_none (h : (s.station i).link.sending = none) : exec (.replyEnd i) s = .next s :=
  if_neg (by rw [h]; exact Bool.false_ne_true)

theorem exec_replyEnd_of_some (h : (s.station i).link.sending ≠ none) :
    exec (.replyEnd i) s = .next (s.updLink i Link.endReply) :=
  if_pos (Option.isSome_iff_ne_none.2 h)

/-- An update of a station is what it makes of the station as it stands. -/
theorem updStation_congr {f g : Station → Station} (h : f (s.station i) = g (s.station i)) :
    s.updStation i f = s.updStation i g := by
  have at_i : f s.stations[i] = g s.stations[i] := h
  simp only [State.updStation, at_i]

theorem updLink_congr {f g : Link → Link} (h : f (s.station i).link = g (s.station i).link) :
    s.updLink i f = s.updLink i g :=
  updStation_congr (f := fun x => { x with link := f x.link }) (g := fun x => { x with link := g x.link })
    (congrArg (fun l => { s.station i with link := l }) h)

end Replies

/-! ### The line (R140, R152, R168) -/

section Bits

/-- Place m of the k-th of lists of one length laid end to end. -/
theorem getElem?_flatMap_of_size {α β : Type} {f : α → List β} {size : Nat} (sized : ∀ x, (f x).length = size)
    {l : List α} {k : Nat} {x : α} (at_k : l[k]? = some x) {m : Nat} (hm : m < size) :
    (l.flatMap f)[size * k + m]? = (f x)[m]? := by
  induction l generalizing k with
  | nil => cases at_k
  | cons y l ih =>
    rw [List.flatMap_cons]
    cases k with
    | zero =>
      cases at_k
      rw [Nat.mul_zero, Nat.zero_add, List.getElem?_append_left (by rw [sized]; exact hm)]
    | succ k =>
      have beyond : size * (k + 1) + m - size = size * k + m := by
        rw [Nat.mul_succ]
        omega
      rw [List.getElem?_append_right (by rw [sized, Nat.mul_succ]; omega), sized, beyond]
      exact ih at_k

theorem getElem?_characterBits_data (d : Byte) (mark : Bool) {j : Nat} (hj : j < 8) :
    (characterBits d mark)[1 + j]? = some (d.getLsbD j) := by
  have within : j < ((List.range 8).map d.getLsbD).length := by simpa using hj
  rw [characterBits, Nat.add_comm, List.getElem?_cons_succ, List.getElem?_append_left within]
  simp [hj]

/-- All bits of a reply, four characters back to back. -/
def Reply.bits (r : Reply) : List Bool := r.characters.flatMap fun c => characterBits c.1 c.2

theorem length_replyBits (r : Reply) : r.bits.length = 44 := rfl

theorem bits_of_whole {x : Sending} (h : x.cut = false) : x.bits = x.reply.bits := by
  rw [Sending.bits, h]
  rfl

theorem bits_of_cut {x : Sending} (h : x.cut = true) : x.bits = x.reply.bits.take (11 * (x.position + 1)) := by
  rw [Sending.bits, h, if_pos rfl]
  rcases x.position with _ | _ | _ | p
  · rfl
  · rfl
  · rfl
  · have all : x.reply.characters.take (p + 3 + 1) = x.reply.characters :=
      List.take_of_length_le (by simp [Reply.characters])
    rw [all, List.take_of_length_le (by rw [length_replyBits]; omega), Reply.bits]

theorem getElem?_replyBits {r : Reply} {k m : Nat} {c : Byte × Bool} (at_k : r.characters[k]? = some c) (hm : m < 11) :
    r.bits[11 * k + m]? = (characterBits c.1 c.2)[m]? :=
  getElem?_flatMap_of_size (f := fun c : Byte × Bool => characterBits c.1 c.2)
    (fun c => length_characterBits c.1 c.2) at_k hm

/-- The first character alone has its mark bit set (R152, R168). -/
theorem getElem?_characters {r : Reply} {k : Nat} {c : Byte} (h : [r.start, r.note, r.status, r.check][k]? = some c) :
    r.characters[k]? = some (c, decide (k = 0)) := by
  rcases k with _ | _ | _ | _ | k
  · cases h; rfl
  · cases h; rfl
  · cases h; rfl
  · cases h; rfl
  · cases h

end Bits

section Line
variable {s : State} {i : StationId}

theorem ltxLevel_of_silent {n : Nat}
    (h : s.clearRunning = true ∨ (s.station i).link.sending = none ∨ (s.ltx i).length ≤ n) :
    s.ltxLevel i n = true := by
  have beyond : (s.ltx i).length ≤ n := by
    rcases h with clearing | silent | past
    · rw [State.ltx, if_pos clearing]
      exact Nat.zero_le n
    · rw [ltx_of_none silent]
      exact Nat.zero_le n
    · exact past
  rw [State.ltxLevel, List.getD_eq_getElem?_getD, List.getElem?_eq_none beyond, Option.getD_none]

theorem ltx_of_sending {x : Sending} (running : s.clearRunning = false) (h : (s.station i).link.sending = some x) :
    s.ltx i = x.bits := by
  rw [State.ltx, running, h]
  rfl

theorem ltxNow_of_none (h : (s.station i).link.sending = none) : s.ltxNow i = true := by
  rw [State.ltxNow, h]

theorem bitNow_eq {T : Nat} (x : Sending) (hT : 0 < T) : x.bitNow T = (11 * T * x.position + x.elapsed) / T := by
  have whole : 11 * T * x.position + x.elapsed = x.elapsed + T * (11 * x.position) := by
    rw [Nat.add_comm, Nat.mul_comm 11 T, Nat.mul_assoc]
  rw [Sending.bitNow, whole, Nat.add_mul_div_left _ _ hT, Nat.add_comm]

theorem ltxNow_of_sending {x : Sending} {T : Nat} (h : (s.station i).link.sending = some x) (timed : x.bitTime = some T)
    (hT : 0 < T) : s.ltxNow i = s.ltxLevel i ((11 * T * x.position + x.elapsed) / T) := by
  have now : s.ltxNow i = x.bitTime.elim true fun T => s.ltxLevel i (x.bitNow T) := by rw [State.ltxNow, h]
  rw [now, timed, ← bitNow_eq x hT]
  rfl

end Line

/-! ### Time passing for a reply (R152) -/

section Pass
variable {x : Sending} {T : Nat}

theorem elapsed_pass_of_cut (timed : x.bitTime = some T) (cut : x.cut = true) (n : Nat) :
    (x.pass n).elapsed = min (11 * T) (x.elapsed + n) := by
  simp [Sending.pass, timed, cut]

theorem position_pass_of_whole (timed : x.bitTime = some T) (hT : 0 < T) (whole : x.cut = false)
    (hp : x.position < 4) (n : Nat) :
    (x.pass n).position = min 3 ((11 * T * x.position + x.elapsed + n) / (11 * T)) := by
  have place : (11 * T * x.position + x.elapsed + n) / (11 * T) = (x.elapsed + n) / (11 * T) + x.position := by
    rw [Nat.add_assoc, Nat.add_comm, Nat.add_mul_div_left _ _ (by omega)]
  rw [place]
  simp only [Sending.pass, timed, whole, Bool.false_eq_true, if_false]
  omega

theorem time_pass_of_whole (timed : x.bitTime = some T) (hT : 0 < T) (whole : x.cut = false)
    (hp : x.position < 4) (n : Nat) :
    11 * T * (x.pass n).position + (x.pass n).elapsed = min (44 * T) (11 * T * x.position + x.elapsed + n) := by
  have split : (x.elapsed + n) / (11 * T) * (11 * T) + (x.elapsed + n) % (11 * T) = x.elapsed + n := by
    rw [Nat.mul_comm]
    exact Nat.div_add_mod _ _
  have rest : (x.elapsed + n) % (11 * T) < 11 * T := Nat.mod_lt _ (by omega)
  have last : 11 * T * 3 + 11 * T = 44 * T := by omega
  simp only [Sending.pass, timed, whole, Bool.false_eq_true, if_false]
  by_cases within : (x.elapsed + n) / (11 * T) ≤ 3 - x.position
  · have upper : 11 * T * ((x.elapsed + n) / (11 * T) + x.position) ≤ 11 * T * 3 := Nat.mul_le_mul_left _ (by omega)
    rw [Nat.mul_add, Nat.mul_comm (11 * T) ((x.elapsed + n) / (11 * T))] at upper
    rw [Nat.min_eq_right within, Nat.mul_add, Nat.mul_comm (11 * T) ((x.elapsed + n) / (11 * T))]
    omega
  · have place : x.position + (3 - x.position) = 3 := by omega
    have lower : (3 - x.position + 1) * (11 * T) ≤ (x.elapsed + n) / (11 * T) * (11 * T) :=
      Nat.mul_le_mul_right _ (by omega)
    have total : 11 * T * x.position + (3 - x.position) * (11 * T) = 11 * T * 3 := by
      rw [Nat.mul_comm (3 - x.position), ← Nat.mul_add, place]
    rw [Nat.succ_mul] at lower
    rw [Nat.min_eq_left (by omega), place]
    omega

end Pass

/-- Settles O40. -/
theorem repliesAreSentInTurn : Obligations.RepliesAreSentInTurn := by
  unfold Obligations.RepliesAreSentInTurn
  refine ⟨fun l r => ⟨fun free => queueReply_of_none free r, fun busy => queueReply_of_some busy r⟩,
    fun s i => ⟨exec_replyEnd_of_none, fun busy => ⟨fun none => ?last, fun r pending => ?next⟩⟩,
    fun s i n h => ltxLevel_of_silent h, fun x T n timed low high place => ?pass,
    fun s i h => ltxNow_of_none h, fun s i x T t sending timed low total => ?now, fun s i x running sending => ?line⟩
  case last =>
    rw [exec_replyEnd_of_some busy]
    exact congrArg _ (updLink_congr (by rw [Link.endReply, none]))
  case next =>
    rw [exec_replyEnd_of_some busy]
    exact congrArg _ (updLink_congr (by rw [Link.endReply, pending]))
  case pass =>
    have fields : x.pass n = { x with position := (x.pass n).position, elapsed := (x.pass n).elapsed } := by
      simp only [Sending.pass, timed]
    refine ⟨x.pass n, rfl, fields, elapsed_pass_le timed n,
      fun cut => ⟨position_pass_of_cut cut n, elapsed_pass_of_cut timed cut n⟩, ?_⟩
    rintro whole _ rfl
    exact ⟨position_pass_of_whole timed (by omega) whole place n, time_pass_of_whole timed (by omega) whole place n⟩
  case now =>
    rw [total]
    exact ltxNow_of_sending sending timed (by omega)
  case line =>
    rw [ltx_of_sending running sending]
    refine ⟨x.reply.bits, length_replyBits _, bits_of_whole, bits_of_cut, fun k c at_k => ?_⟩
    have char := getElem?_characters at_k
    refine ⟨getElem?_replyBits char (m := 0) (by omega), fun j hj => ?_, getElem?_replyBits char (m := 9) (by omega),
      getElem?_replyBits char (m := 10) (by omega)⟩
    rw [Nat.add_assoc, getElem?_replyBits char (m := 1 + j) (by omega)]
    exact getElem?_characterBits_data _ _ hj

end Sys2Proof.Machine
end

section
/-! The engine's timer expiries (O45). -/

namespace Sys2Proof.Machine

section Expiries
variable {s : State} {i : StationId}

/-! ### The settle timer (R50) -/

theorem exec_settleExpiry_of_none (h : (s.station i).fingering.settle ≠ .expired) :
    exec (.settleExpiry i) s = .next s :=
  if_neg fun ⟨_, expired, _⟩ => h expired

theorem exec_settleExpiry_of_expired (live : (s.station i).state = .live)
    (expired : (s.station i).fingering.settle = .expired) (free : (s.station i).engineFree = true) :
    exec (.settleExpiry i) s =
      .next (resolveOrStall (s.updFingering i fun g => { g with settle := .stopped }) i .expiry) :=
  if_pos ⟨live, expired, free⟩

theorem resolveOrStall_of_busy (w : StallWork) (busy : s.charts.busy (s.station i).settings.chart = true) :
    resolveOrStall s i w = s.updStation i fun x => { x with stall := some w } := if_pos busy

theorem resolveOrStall_of_idle (w : StallWork) (idle : s.charts.busy (s.station i).settings.chart = false) :
    resolveOrStall s i w = finishWork (resolution s i) i w := if_neg (by rw [idle]; exact Bool.false_ne_true)

/-! ### The silence timer (R135) -/

theorem exec_silenceTimeout_of_none (h : (s.station i).link.silence ≠ .expired) :
    exec (.silenceTimeout i) s = .next s := if_neg fun ⟨expired, _⟩ => h expired

theorem exec_silenceTimeout_of_expired (expired : (s.station i).link.silence = .expired)
    (noSync : (s.station i).syncHanded = false) : exec (.silenceTimeout i) s = .next (takeSilence s i) :=
  if_pos ⟨expired, noSync⟩

theorem takeSilence_live (live : (s.station i).state = .live) :
    takeSilence s i =
      report (stopSilence (leaveLive s i .lost) i) .linkSilent (some i) none ((s.note i).map NoteRecord.tag) 4 := by
  rw [takeSilence, live]

theorem takeSilence_calibrating (calibrating : (s.station i).state = .calibrating) :
    takeSilence s i = report (becomeSynced s i) .linkSilent (some i) none none 3 := by
  rw [takeSilence, calibrating]

theorem timebase_leaveLive (s : State) (i : StationId) (x : StationState) : (leaveLive s i x).timebase = s.timebase := by
  obtain ⟨-, ⟨-, timebase, -⟩, -⟩ := engineFrame_leaveLive s i x
  exact timebase

theorem becomeSynced_of_notLive (h : (s.station i).state ≠ .live) :
    becomeSynced s i =
      s.updStation i fun x =>
        { x with state := .synced, calib := Calibration.fresh, link := { x.link with silence := .stopped } } := by
  rw [becomeSynced, stopSilence, enterState, if_neg h, updLink_eq, updStation_updStation]

/-- A report changes nothing of a note's end. -/
theorem NoteEnds.report {t : State} (h : NoteEnds s t i) (k : FaultKind) (st : Option StationId)
    (vo : Option VoiceId) (tag : Option Nat) (detail : Word) : NoteEnds s (report t k st vo tag detail) i := h

theorem noteEnds_stopSilence {t : State} (h : NoteEnds s t i) : NoteEnds s (stopSilence t i) i := h.updStation _

end Expiries

/-- Settles O45. -/
theorem timerExpiriesAreTaken : Obligations.TimerExpiriesAreTaken := by
  unfold Obligations.TimerExpiriesAreTaken
  refine ⟨fun s i h => exec_settleExpiry_of_none h, fun s i h => exec_silenceTimeout_of_none h,
    fun s i live expired free => ?settle, fun s i live expired noSync => ?lost,
    fun s i calibrating expired noSync => ?synced⟩
  case settle =>
    have chart : ((s.updFingering i fun g => { g with settle := .stopped }).station i).settings =
        (s.station i).settings := by
      rw [updFingering_eq, station_updStation_self]
    rw [exec_settleExpiry_of_expired live expired free]
    refine ⟨fun busy => ?_, fun idle => ?_⟩
    · rw [resolveOrStall_of_busy _ (by rw [chart]; exact busy), updFingering_eq, updStation_updStation]
    · rw [resolveOrStall_of_idle _ (by rw [chart]; exact idle), finishWork_expiry]
  case lost =>
    refine ⟨takeSilence s i, exec_silenceTimeout_of_expired expired noSync, engineFrame_takeSilence s i, ?_⟩
    rw [takeSilence_live live]
    refine ⟨(noteEnds_stopSilence (noteEnds_leaveLive s i .lost)).report _ _ _ _ _, ?_, ?_⟩
    · rw [report, stopSilence, updLink_eq]
      simp only [faults_updStation, timebase_updStation, leaveLive_faults, timebase_leaveLive]
    · rw [station_report, stopSilence, updLink_eq, station_updStation_self, leaveLive_station]
  case synced =>
    have other : (s.station i).state ≠ .live := by rw [calibrating]; decide
    rw [exec_silenceTimeout_of_expired expired noSync, takeSilence_calibrating calibrating,
      becomeSynced_of_notLive other]
    rfl

end Sys2Proof.Machine
end

section
/-! HELLO (O41). -/

namespace Sys2Proof.Machine

section Hello
variable {s : State} {i : StationId}

/-! ### Which HELLO the engine takes (R130) -/

theorem exec_hello_of_idle
    (h : (s.station i).state = .disabled ∨ (s.station i).state = .offline ∨ (s.station i).link.buffer = none
      ∨ (s.station i).engineFree = false) : exec (.hello i) s = .next s := by
  change execHello i s = _
  unfold execHello
  split
  · next seq cls count pref buffer =>
    split
    · next free =>
      split
      · rfl
      · rfl
      all_goals
        next state =>
        rw [state, buffer, free] at h
        simp at h
    · rfl
  · rfl

theorem exec_hello_of_taken {seq cls count pref : Nat}
    (buffer : (s.station i).link.buffer = some ⟨seq, .hello cls count pref⟩) (free : (s.station i).engineFree = true)
    (enabled : (s.station i).state ≠ .disabled) (joined : (s.station i).state ≠ .offline) :
    exec (.hello i) s = .next (takeHello (dropBuffer s i) i cls count pref seq) := by
  change execHello i s = _
  simp only [execHello, buffer, free, if_true]
  split
  · next state => exact absurd state enabled
  · next state => exact absurd state joined
  all_goals rfl

theorem stall_of_engineFree {x : Station} (free : x.engineFree = true) : x.stall = none := by
  rw [Station.engineFree, Bool.and_eq_true, Option.isNone_iff_eq_none] at free
  exact free.1

/-! ### What it does (R130, R150, R151) -/

theorem val_chartAfterHello (c : Settings) (pref : Nat) :
    (chartAfterHello c pref).val = if c.follow = true ∧ pref < 8 then pref else c.chart.val := by
  unfold chartAfterHello
  split <;> rfl

theorem keyCount_clamped (count : Nat) : max 1 (min 32 count) = if count = 0 then 1 else min 32 count := by
  split <;> omega

/-- A station at rest in CALIBRATING replies with no note and no indicator set (R151). -/
theorem replyOf_calibrating {x : Station} (state : x.state = .calibrating) (breath : x.breath = x.breath.atRest)
    (fingering : x.fingering = x.fingering.atRest) (seq : Nat) :
    (replyOf x seq).start = BitVec.ofNat 8 (0x80 + seq) ∧ (replyOf x seq).note = 0xFF ∧ (replyOf x seq).status = 3
      ∧ (replyOf x seq).start + (replyOf x seq).note + (replyOf x seq).status + (replyOf x seq).check = 0 := by
  refine ⟨rfl, ?_, ?_, BitVec.add_right_neg _⟩
  · simp only [replyOf, noteChar]
    rw [fingering]
    rfl
  · simp only [replyOf]
    rw [state, breath]
    rfl

/-- The HELLO's fields stored in a station whose buffer is emptied. -/
def Station.helloStored (x : Station) (cls count pref : Nat) : Station :=
  { x with
    cls := some (min 15 cls)
    keyCount := max 1 (min 32 count)
    settings := { x.settings with chart := chartAfterHello x.settings pref }
    link := { x.link with buffer := none } }

theorem restOk_helloStored {x : Station} (h : x.restOk) (cls count pref : Nat) :
    (x.helloStored cls count pref).restOk := h

theorem storeHello_dropBuffer (s : State) (i : StationId) (cls count pref : Nat) :
    storeHello (dropBuffer s i) i cls count pref = s.updStation i fun x => x.helloStored cls count pref := by
  rw [storeHello, dropBuffer, updLink_eq, updStation_updStation]
  rfl

theorem samePool_enterState {t : State} (h : (t.station i).state ≠ .live) (x : StationState) :
    SamePool t (enterState t i x) := by
  rw [enterState, if_neg h]
  exact samePool_updStation t i _

/-- The part with a HELLO stored and its station CALIBRATING, the silence timer not yet looked at. -/
def helloEntered (s : State) (i : StationId) (cls count pref : Nat) : State :=
  enterState (s.updStation i fun x => x.helloStored cls count pref) i .calibrating

/-- The part before a HELLO's REPLY falls due. -/
def helloTaken (s : State) (i : StationId) (cls count pref : Nat) : State :=
  if (s.station i).state = .synced ∨ (s.station i).state = .lost then startSilence (helloEntered s i cls count pref) i
  else helloEntered s i cls count pref

theorem takeHello_dropBuffer (s : State) (i : StationId) (cls count pref seq : Nat) :
    takeHello (dropBuffer s i) i cls count pref seq = replyDue (helloTaken s i cls count pref) i seq := by
  have state : ((dropBuffer s i).station i).state = (s.station i).state := by
    rw [dropBuffer, updLink_eq, station_updStation_self]
  unfold takeHello
  rw [storeHello_dropBuffer, state]
  rfl

theorem station_helloEntered (rest : (s.station i).restOk) (cls count pref : Nat) :
    (helloEntered s i cls count pref).station i =
      { s.station i with
        state := .calibrating
        settings := { (s.station i).settings with chart := chartAfterHello (s.station i).settings pref }
        cls := some (min 15 cls)
        keyCount := max 1 (min 32 count)
        breath := (s.station i).breath.atRest
        fingering := (s.station i).fingering.atRest
        calib := Calibration.fresh
        stall := none
        link := { (s.station i).link with buffer := none } } := by
  rw [helloEntered, enterState_station _ _ _ (by rw [station_updStation_self]; exact restOk_helloStored rest _ _ _),
    station_updStation_self]
  rfl

theorem noteEnds_helloEntered (rest : (s.station i).restOk) (cls count pref : Nat) :
    NoteEnds s (helloEntered s i cls count pref) i := by
  refine NoteEnds.of_updStation (f := fun x => x.helloStored cls count pref) rfl (noteEnds_enterState _ i _ ?_)
  rw [station_updStation_self]
  exact restOk_helloStored rest _ _ _

theorem samePool_helloEntered (other : (s.station i).state ≠ .live) (cls count pref : Nat) :
    SamePool s (helloEntered s i cls count pref) := by
  refine (samePool_updStation s i fun x => x.helloStored cls count pref).trans (samePool_enterState ?_ _)
  rw [station_updStation_self]
  exact other

/-- What the REPLY to a HELLO is given to: only the silence timer is started besides. -/
theorem helloTaken_eq (s : State) (i : StationId) (cls count pref : Nat) :
    helloTaken s i cls count pref = (helloEntered s i cls count pref).updStation i fun x =>
      { x with
        link := { x.link with
          silence :=
            if (s.station i).state = .synced ∨ (s.station i).state = .lost then .running 1152 else x.link.silence } } := by
  unfold helloTaken
  split
  · rfl
  · exact (updStation_id _ _ _ rfl).symm

end Hello

/-- Settles O41. -/
theorem helloStartsCalibration : Obligations.HelloStartsCalibration := by
  unfold Obligations.HelloStartsCalibration
  refine ⟨fun s i h => exec_hello_of_idle h, ?_⟩
  intro s i seq cls count pref buffer free enabled joined rest
  have station := station_helloEntered rest cls count pref
  rw [← stall_of_engineFree free] at station
  refine ⟨replyDue (helloTaken s i cls count pref) i seq, replyOf ((helloTaken s i cls count pref).station i) seq,
    chartAfterHello (s.station i).settings pref, ?means, ?frame, ?faults, ?ends, fun other => ?pool,
    val_chartAfterHello _ _, ?reply, ?station⟩
  case means => rw [exec_hello_of_taken buffer free enabled joined, takeHello_dropBuffer]
  case frame =>
    rw [← takeHello_dropBuffer]
    exact (engineFrame_updStation s i _).trans (engineFrame_takeHello _ i cls count pref seq)
  case faults =>
    rw [replyDue, faults_updStation, helloTaken_eq, faults_updStation]
    exact enterState_faults _ i .calibrating
  case ends =>
    rw [helloTaken_eq]
    exact ((noteEnds_helloEntered rest cls count pref).updStation _).updStation _
  case pool =>
    rw [helloTaken_eq]
    exact ((samePool_helloEntered other cls count pref).trans (samePool_updStation _ i _)).trans
      (samePool_updStation _ i _)
  case reply =>
    rw [helloTaken_eq, station_updStation_self, station]
    exact replyOf_calibrating rfl rfl rfl seq
  case station =>
    rw [replyDue, station_updStation_self, helloTaken_eq, station_updStation_self, station, keyCount_clamped]

end Sys2Proof.Machine
end

section
/-! Frames that are not performed (O42). -/

namespace Sys2Proof.Machine

section Buffer
variable (s : State) (i : StationId)

theorem station_dropBuffer : (dropBuffer s i).station i =
    { s.station i with link := { (s.station i).link with buffer := none } } := by
  rw [dropBuffer, updLink_eq, station_updStation_self]

end Buffer

section NotPerformed
variable {s : State} {i : StationId} {seq br lip : Nat} {keys : Word}

theorem exec_play_of_taken (buffer : (s.station i).link.buffer = some ⟨seq, .play keys br lip⟩)
    (free : (s.station i).engineFree = true) (enabled : (s.station i).state ≠ .disabled)
    (joined : (s.station i).state ≠ .offline) :
    exec (.play i) s = .next (takePlay (dropBuffer s i) i keys br lip seq) := by
  change execPlay i s = _
  simp only [execPlay, buffer, free, if_true]
  split
  · next state => exact absurd state enabled
  · next state => exact absurd state joined
  all_goals rfl

theorem exec_hush_of_taken (buffer : (s.station i).link.buffer = some ⟨seq, .hush⟩)
    (free : (s.station i).engineFree = true) (enabled : (s.station i).state ≠ .disabled)
    (joined : (s.station i).state ≠ .offline) : exec (.hush i) s = .next (takeHush (dropBuffer s i) i) := by
  change execHush i s = _
  simp only [execHush, buffer, free, if_true]
  split
  · next state => exact absurd state enabled
  · next state => exact absurd state joined
  all_goals rfl

/-! ### A calibration sample (R131, R132) -/

theorem minimum_gather (c : Calibration) (b l : Nat) :
    (c.gather b l).minimum = some (match c.minimum with | some m => min m b | none => b) := by
  rw [Calibration.gather]
  cases c.minimum <;> rfl

theorem maximum_gather (c : Calibration) (b l : Nat) :
    (c.gather b l).maximum = some (match c.maximum with | some m => max m b | none => b) := by
  rw [Calibration.gather]
  cases c.maximum <;> rfl

section Sample
variable {x : Station} {b l lo hi : Nat} (low : (x.calib.gather b l).minimum = some lo)
  (high : (x.calib.gather b l).maximum = some hi)
include low high

theorem tooWide_gather : (x.calib.gather b l).tooWide x.settings.spread = decide (x.settings.spread < hi - lo) := by
  rw [Calibration.tooWide, low, high]

theorem calibSample_of_wide (wide : x.settings.spread < hi - lo) :
    calibSample x.settings.spread x.calib x.restarts b l = (.only b l, saturate 65535 (x.restarts + 1)) := by
  rw [calibSample]
  exact if_pos ((tooWide_gather low high).trans (decide_eq_true wide))

theorem calibSample_of_narrow (narrow : hi - lo ≤ x.settings.spread) :
    calibSample x.settings.spread x.calib x.restarts b l = (x.calib.gather b l, x.restarts) := by
  rw [calibSample]
  refine if_neg ?_
  rw [tooWide_gather low high, decide_eq_true_iff]
  omega

theorem gather_eq : x.calib.gather b l =
    ⟨x.calib.count + 1, x.calib.breathSum + b, x.calib.lipSum + l, some lo, some hi⟩ := by
  rw [← low, ← high]
  rfl

theorem sampleStation_of_wide (wide : x.settings.spread < hi - lo) :
    sampleStation b l x =
      { x with calib := ⟨1, b, l, some b, some b⟩, restarts := min 65535 (x.restarts + 1) } := by
  rw [sampleStation, calibSample_of_wide low high wide]
  exact if_neg (by decide : ¬ (1 : Nat) = 16)

theorem sampleStation_of_more (narrow : hi - lo ≤ x.settings.spread) (more : x.calib.count + 1 ≠ 16) :
    sampleStation b l x =
      { x with
        calib := ⟨x.calib.count + 1, x.calib.breathSum + b, x.calib.lipSum + l, some lo, some hi⟩ } := by
  rw [sampleStation, calibSample_of_narrow low high narrow, gather_eq low high]
  exact if_neg more

theorem sampleStation_of_last (narrow : hi - lo ≤ x.settings.spread) (last : x.calib.count + 1 = 16) :
    sampleStation b l x =
      { x with
        state := .live
        calib := Calibration.fresh
        breath := { x.breath with
          zero := (x.calib.breathSum + b) / 16, lipCentre := (x.calib.lipSum + l) / 16, borrowRun := 0 } } := by
  rw [sampleStation, calibSample_of_narrow low high narrow, gather_eq low high]
  exact if_pos last

end Sample

/-- A sample is gathered beside the link. -/
theorem sampleStation_link (x : Station) (l : Link) (b lip : Nat) :
    sampleStation b lip { x with link := l } = { sampleStation b lip x with link := l } := by
  simp only [sampleStation]
  split <;> rfl

theorem link_sampleStation (x : Station) (b lip : Nat) : (sampleStation b lip x).link = x.link := by
  simp only [sampleStation]
  split <;> rfl

/-- A reply shows nothing of the link. -/
theorem replyOf_link (x : Station) (l : Link) (seq : Nat) : replyOf { x with link := l } seq = replyOf x seq := rfl

theorem takePlay_calibrating (calibrating : (s.station i).state = .calibrating) (keys : Word) (br lip seq : Nat) :
    takePlay s i keys br lip seq = takeSample s i br lip seq := by
  rw [takePlay, calibrating]

theorem takePlay_synced (synced : (s.station i).state = .synced) (keys : Word) (br lip seq : Nat) :
    takePlay s i keys br lip seq = protocolFault s i 4 (BitVec.ofNat 8 (0x20 + seq)) 0 := by
  rw [takePlay, synced]

theorem protocolFault_eq (s : State) (i : StationId) (cause : Nat) (ch : Byte) (gathered : Nat) :
    protocolFault s i cause ch gathered = afterProtocolFault s i (ch.toNat + gathered * 256 + cause * 4096) := rfl

theorem protocolFault_playInSynced (s : State) (i : StationId) (ch : Byte) :
    protocolFault s i 4 ch 0 = afterProtocolFault s i (ch.toNat + 4 * 4096) := by
  have detail : ch.toNat + 0 * 256 + 4 * 4096 = ch.toNat + 4 * 4096 := by omega
  rw [protocolFault_eq, detail]

/-! ### HUSH (R134) -/

theorem takeHush_of_other (other : (s.station i).state ≠ .live) : takeHush s i = s := if_neg other

theorem takeHush_live (live : (s.station i).state = .live) : takeHush s i = clearBreath (hushFingering s i) i :=
  if_pos live

theorem station_hushed (s : State) (i : StationId) : (clearBreath (hushFingering s i) i).station i =
    { s.station i with
      breath := (s.station i).breath.atRest
      fingering := { (s.station i).fingering with
        note := none, onsetPending := false, settle := .stopped, changed := 0 } } := by
  simp only [clearBreath, hushFingering, updBreath_eq, updFingering_eq, station_updStation_self, noteOff_station]

theorem faults_hushed (s : State) (i : StationId) : (clearBreath (hushFingering s i) i).faults = s.faults := by
  simp only [clearBreath, hushFingering, updBreath_eq, updFingering_eq, faults_updStation, noteOff_faults]

theorem noteEnds_hushed (s : State) (i : StationId) : NoteEnds s (clearBreath (hushFingering s i) i) i :=
  ((noteEnds_noteOff s i).updStation _).updStation _

theorem NoteEnds.samePool_of_none {t : State} (ends : NoteEnds s t i) (h : s.note i = none) : SamePool s t := by
  obtain ⟨pool, -⟩ := ends
  rw [noteOff, h] at pool
  exact pool

end NotPerformed

/-- Settles O42. -/
theorem framesThatAreNotPerformed : Obligations.FramesThatAreNotPerformed := by
  unfold Obligations.FramesThatAreNotPerformed
  refine ⟨?sample, ?dropped, fun s i seq buffer free => ⟨fun other => ?ignored, fun live => ?hush⟩⟩
  case sample =>
    intro s i seq br lip keys b l lo hi buffer free calibrating hb hl hlo hhi
    have state : ((dropBuffer s i).station i).state = .calibrating := by rw [station_dropBuffer]; exact calibrating
    have low := (minimum_gather (s.station i).calib b l).trans (congrArg some hlo.symm)
    have high := (maximum_gather (s.station i).calib b l).trans (congrArg some hhi.symm)
    have means : exec (.play i) s = .next (takeSample (dropBuffer s i) i br lip seq) := by
      rw [exec_play_of_taken buffer free (by rw [calibrating]; decide) (by rw [calibrating]; decide),
        takePlay_calibrating state]
    refine ⟨_, sampleStation b l (s.station i), replyOf (sampleStation b l (s.station i)) seq, means, ?_, ?_, rfl,
      isReply_replyOf _ _, ?_, sampleStation_of_wide low high, sampleStation_of_more low high,
      sampleStation_of_last low high⟩
    · exact ((engineFrame_updStation s i _).trans (engineFrame_updStation _ i _)).trans (engineFrame_updStation _ i _)
    · exact ((samePool_updStation s i _).trans (samePool_updStation _ i _)).trans (samePool_updStation _ i _)
    · rw [takeSample, replyDue, station_updStation_self, station_updStation_self, station_dropBuffer,
        sampleStation_link, replyOf_link, hb, hl, link_sampleStation]
      rfl
  case dropped =>
    intro s i seq br lip keys buffer free synced
    have state : ((dropBuffer s i).station i).state = .synced := by rw [station_dropBuffer]; exact synced
    rw [exec_play_of_taken buffer free (by rw [synced]; decide) (by rw [synced]; decide), takePlay_synced state,
      protocolFault_playInSynced, dropBuffer]
  case ignored =>
    have state : ((dropBuffer s i).station i).state ≠ .live := by
      rw [station_dropBuffer]
      rcases other with h | h | h <;> (rw [h]; decide)
    have enabled : (s.station i).state ≠ .disabled := by rcases other with h | h | h <;> (rw [h]; decide)
    have joined : (s.station i).state ≠ .offline := by rcases other with h | h | h <;> (rw [h]; decide)
    rw [exec_hush_of_taken buffer free enabled joined, takeHush_of_other state]
    rfl
  case hush =>
    have state : ((dropBuffer s i).station i).state = .live := by rw [station_dropBuffer]; exact live
    have means := exec_hush_of_taken buffer free (by rw [live]; decide) (by rw [live]; decide)
    have frame := engineFrame_takeHush (dropBuffer s i) i
    rw [takeHush_live state] at means frame
    have ends : NoteEnds s (clearBreath (hushFingering (dropBuffer s i) i) i) i :=
      NoteEnds.of_updStation rfl (noteEnds_hushed (dropBuffer s i) i)
    refine ⟨_, means, (engineFrame_updStation s i _).trans frame, faults_hushed _ _, ends, ends.samePool_of_none, ?_⟩
    rw [station_hushed, station_dropBuffer]

end Sys2Proof.Machine
end

section
/-! NOTE_ON: the tag and the note record (O36). -/

namespace Sys2Proof.Machine

/-! ### Tags in use (R61) -/

section Tags
variable (s : State) (tag : Nat)

/-- A voice's tag (R61): its owner's while SOUNDING, RELEASING or FAULTED, its claim's while bound. -/
def tagOfVoice (v : VoiceId) : Option Nat :=
  match (s.voice v).state with
  | .sounding | .releasing | .faulted => (s.voice v).owner.map Owner.tag
  | .draining => (claimOf s v).map Claim.tag
  | .free => none

theorem carriesTag_iff (v : VoiceId) : carriesTag s tag v = true ↔ tagOfVoice s v = some tag := by
  unfold carriesTag tagOfVoice
  cases (s.voice v).state with
  | sounding => cases (s.voice v).owner <;> simp
  | releasing => cases (s.voice v).owner <;> simp
  | faulted => cases (s.voice v).owner <;> simp
  | draining => cases claimOf s v <;> simp
  | free => simp

theorem carriesTag_iff_states (v : VoiceId) : carriesTag s tag v = true ↔
    (((s.voice v).state = .sounding ∨ (s.voice v).state = .releasing ∨ (s.voice v).state = .faulted)
        ∧ ∃ o, (s.voice v).owner = some o ∧ o.tag = tag)
      ∨ (s.voice v).state = .draining ∧ ∃ c, claimOf s v = some c ∧ c.tag = tag := by
  rw [carriesTag_iff]
  unfold tagOfVoice
  cases (s.voice v).state <;> simp

theorem any_allStations (p : StationId → Bool) : allStations.any p = true ↔ ∃ i, p i = true := by
  rw [List.any_eq_true]
  exact ⟨fun ⟨i, _, h⟩ => ⟨i, h⟩, fun ⟨i, h⟩ => ⟨i, mem_allStations i, h⟩⟩

theorem any_allVoices (p : VoiceId → Bool) : allVoices.any p = true ↔ ∃ v, p v = true := by
  rw [List.any_eq_true]
  exact ⟨fun ⟨v, _, h⟩ => ⟨v, h⟩, fun ⟨v, h⟩ => ⟨v, List.mem_finRange v, h⟩⟩

theorem tagInUse_iff : tagInUse s tag = true ↔
    (∃ i, (s.note i).map NoteRecord.tag = some tag) ∨ ∃ v, tagOfVoice s v = some tag := by
  rw [tagInUse, Bool.or_eq_true, any_allStations, any_allVoices]
  refine or_congr (exists_congr fun i => ?_) (exists_congr fun v => carriesTag_iff s tag v)
  cases s.note i <;> simp

/-- The tags in use: at most one for each station and each voice. -/
def tagsInUse : List Nat :=
  (allStations.filterMap fun i => (s.note i).map NoteRecord.tag) ++ allVoices.filterMap (tagOfVoice s)

theorem mem_tagsInUse : tag ∈ tagsInUse s ↔ tagInUse s tag = true := by
  rw [tagInUse_iff, tagsInUse, List.mem_append, List.mem_filterMap, List.mem_filterMap]
  exact or_congr ⟨fun ⟨i, _, h⟩ => ⟨i, h⟩, fun ⟨i, h⟩ => ⟨i, mem_allStations i, h⟩⟩
    ⟨fun ⟨v, _, h⟩ => ⟨v, h⟩, fun ⟨v, h⟩ => ⟨v, List.mem_finRange v, h⟩⟩

theorem length_tagsInUse : (tagsInUse s).length ≤ 36 := by
  have stations := List.length_filterMap_le (fun i => (s.note i).map NoteRecord.tag) allStations
  have voices := List.length_filterMap_le (tagOfVoice s) allVoices
  have four : allStations.length = 4 := rfl
  have all : allVoices.length = 32 := rfl
  rw [tagsInUse, List.length_append]
  omega

end Tags

/-! ### The next free tag (R61) -/

section FreeTag
variable {s : State}

/-- The value n after a tag, 255 followed by 1. -/
def tagAfter (t n : Nat) : Nat := (t - 1 + n) % 255 + 1

theorem tagAfter_zero {t : Nat} (low : 1 ≤ t) (high : t ≤ 255) : tagAfter t 0 = t := by
  rw [tagAfter, Nat.add_zero, Nat.mod_eq_of_lt (by omega)]
  omega

theorem nextTag_range {t : Nat} (high : t ≤ 255) : 1 ≤ nextTag t ∧ nextTag t ≤ 255 := by
  unfold nextTag
  split <;> omega

theorem tagAfter_nextTag {t : Nat} (low : 1 ≤ t) (high : t ≤ 255) (n : Nat) :
    tagAfter (nextTag t) n = tagAfter t (n + 1) := by
  unfold tagAfter nextTag
  split
  · have : t = 255 := by omega
    subst this
    omega
  · congr 2
    omega

theorem tagAfter_inj {t m n : Nat} (hm : m < 255) (hn : n < 255) (h : tagAfter t m = tagAfter t n) : m = n := by
  unfold tagAfter at h
  omega

/-- The search's result: the first value not in use, if there is one before the fuel is out. -/
theorem freeTag_eq {fuel : Nat} : ∀ {t n : Nat}, 1 ≤ t → t ≤ 255 → n < fuel → tagInUse s (tagAfter t n) = false →
    (∀ m, m < n → tagInUse s (tagAfter t m) = true) → freeTag s fuel t = tagAfter t n := by
  induction fuel with
  | zero => exact fun _ _ within => absurd within (Nat.not_lt_zero _)
  | succ fuel ih =>
    intro t n low high within free used
    rw [freeTag]
    cases n with
    | zero =>
      rw [tagAfter_zero low high] at free ⊢
      rw [free]
      rfl
    | succ n =>
      have first : tagInUse s t = true := by
        have := used 0 (Nat.succ_pos n)
        rwa [tagAfter_zero low high] at this
      obtain ⟨low', high'⟩ := nextTag_range high
      rw [if_pos first, ih (n := n) low' high' (by omega) (by rwa [tagAfter_nextTag low high])
        (fun m hm => by rw [tagAfter_nextTag low high]; exact used (m + 1) (by omega)), tagAfter_nextTag low high]

/-- Fewer tags are in use than there are. -/
theorem exists_unused (s : State) (t : Nat) : ∃ n, n < 255 ∧ tagInUse s (tagAfter t n) = false := by
  refine Classical.byContradiction fun none => ?_
  have inside : ∀ tag ∈ (List.range 255).map (tagAfter t), tag ∈ tagsInUse s := fun tag h => by
    obtain ⟨n, hn, rfl⟩ := List.mem_map.1 h
    exact (mem_tagsInUse s _).2 (eq_true_of_ne_false fun free => none ⟨n, List.mem_range.1 hn, free⟩)
  have nodup : ((List.range 255).map (tagAfter t)).Nodup :=
    nodup_map_of_inj_on List.nodup_range fun m hm n hn =>
      tagAfter_inj (List.mem_range.1 hm) (List.mem_range.1 hn)
  have count := length_le_of_subset nodup inside
  rw [List.length_map, List.length_range] at count
  have few := length_tagsInUse s
  omega

theorem freeTag_spec {t : Nat} (low : 1 ≤ t) (high : t ≤ 255) :
    ∃ n, n < 255 ∧ freeTag s 255 t = tagAfter t n ∧ tagInUse s (tagAfter t n) = false
      ∧ ∀ m, m < n → tagInUse s (tagAfter t m) = true := by
  obtain ⟨unused, small, notInUse⟩ := exists_unused s t
  obtain ⟨n, most, free, before⟩ := exists_least (p := fun n => tagInUse s (tagAfter t n) = false) notInUse
  have within : n < 255 := Nat.lt_of_le_of_lt most small
  have first : ∀ m, m < n → tagInUse s (tagAfter t m) = true := fun m hm => eq_true_of_ne_false (before m hm)
  exact ⟨n, within, freeTag_eq low high within free first, free, first⟩

theorem freeTag_le {t : Nat} (low : 1 ≤ t) (high : t ≤ 255) : freeTag s 255 t ≤ 255 := by
  obtain ⟨n, -, is, -⟩ := freeTag_spec (s := s) low high
  rw [is, tagAfter]
  omega

end FreeTag

/-! ### The note record (R62, R75, R76) -/

section Record
variable (s : State)

theorem length_slotsOf (layers : List Layer) : (slotsOf s layers).length = min 3 layers.length := by
  rw [slotsOf, List.length_map, List.length_zip]
  rfl

theorem getElem?_slotsOf {layers : List Layer} {k : Nat} {x : Slot} {l : Layer} (at_k : (slotsOf s layers)[k]? = some x)
    (layer : layers[k]? = some l) : x.layer.val = k ∧ x.state = .dormant ∧ x.copy = copyLayer s l := by
  rw [slotsOf, List.getElem?_map, Option.map_eq_some_iff] at at_k
  obtain ⟨⟨index, l'⟩, pair, rfl⟩ := at_k
  obtain ⟨at_index, at_layer⟩ := List.getElem?_zip_eq_some.1 pair
  cases layer.symm.trans at_layer
  refine ⟨?_, rfl, rfl⟩
  rcases k with _ | _ | _ | k
  · cases at_index; rfl
  · cases at_index; rfl
  · cases at_index; rfl
  · cases at_index

theorem region_resolveWave {w : WaveId} {r : WaveRegion} (h : s.waves[w] = some r) : (resolveWave s w).region = r := by
  rw [resolveWave, h]
  rfl

theorem tagCounter_evalConditions (i : StationId) : (evalConditions s i).tagCounter = s.tagCounter := by
  obtain ⟨-, -, -, counter, -⟩ := allocatorFrame_evalConditions s i
  exact counter

theorem tagCounter_noteOn (i : StationId) (number : Nat) (raised : Bool) :
    (noteOn s i number raised).tagCounter = nextTag (freeTag s 255 s.tagCounter) := by
  unfold noteOn
  rw [tagCounter_evalConditions]
  rfl

end Record

/-- Settles O36. -/
theorem noteOnTakesATagAndCopiesTheTemplate : Obligations.NoteOnTakesATagAndCopiesTheTemplate := by
  unfold Obligations.NoteOnTakesATagAndCopiesTheTemplate
  refine ⟨fun s tag => ?used, fun s low high => ?taken⟩
  case used =>
    rw [tagInUse_iff]
    simp only [← carriesTag_iff, carriesTag_iff_states, Option.map_eq_some_iff, exists_or, ← exists_and_left]
  case taken =>
    obtain ⟨n, within, is, free, used⟩ := freeTag_spec (s := s) low high
    refine ⟨by rw [is]; exact free, ⟨n, within, is, used⟩, ?_⟩
    rintro i number raised layers rfl
    have counter := tagCounter_noteOn s i number raised
    have top := freeTag_le (s := s) low high
    refine ⟨?_, newRecord s i (freeTag s 255 s.tagCounter) number raised, ?_, rfl, rfl, rfl, rfl,
      length_slotsOf s _, fun k x l at_k layer => ?_⟩
    · rw [counter, nextTag]
      split <;> split <;> omega
    · rw [counter]
      rfl
    · obtain ⟨place, dormant, copy⟩ := getElem?_slotsOf s at_k layer
      rw [copy]
      refine ⟨place, dormant, rfl, rfl, fun r => region_resolveWave s, ?_, fun b r named defined => ?_⟩
      · rw [copyLayer, Option.map_map]
        exact Option.map_id'
      · obtain ⟨w, -, rfl⟩ := Option.map_eq_some_iff.1 named
        exact region_resolveWave s defined

end Sys2Proof.Machine
end

section
/-! Resolutions (O44). -/

namespace Sys2Proof.Machine

/-! ### What an event of a note leaves of its station -/

/-- Station y is x but for the note and an onset waiting. -/
def NoteWork (x y : Station) : Prop :=
  ∃ onset note, y = { x with fingering := { x.fingering with onsetPending := onset, note := note } }

namespace NoteWork
variable {x y z : Station}

theorem rfl : NoteWork x x := ⟨_, _, Eq.refl _⟩

theorem trans (h : NoteWork x y) (k : NoteWork y z) : NoteWork x z := by
  obtain ⟨_, _, rfl⟩ := h
  obtain ⟨_, _, rfl⟩ := k
  exact ⟨_, _, Eq.refl _⟩

end NoteWork

/-- A station that is the same but for its slots' states is the same but for its note, and the notes differ in their
slots' states alone. -/
theorem SameStation.note {s t : State} {j : StationId} (h : SameStation s t j) :
    t.station j = { s.station j with fingering := { (s.station j).fingering with note := t.note j } }
      ∧ (t.note j).map NoteRecord.unslotted = (s.note j).map NoteRecord.unslotted := by
  unfold SameStation at h
  unfold State.note
  generalize s.station j = x at h ⊢
  generalize t.station j = y at h ⊢
  obtain ⟨state, settings, keySense, breath, ⟨snapshot, changed, settle, onset, current, note, misses⟩, cls, keyCount,
    calib, restarts, stall, handed, link⟩ := x
  obtain ⟨state', settings', keySense', breath', ⟨snapshot', changed', settle', onset', current', note', misses'⟩, cls',
    keyCount', calib', restarts', stall', handed', link'⟩ := y
  simp only [Station.unslotted, Station.mk.injEq, Fingering.mk.injEq] at h
  obtain ⟨rfl, rfl, rfl, rfl, ⟨rfl, rfl, rfl, rfl, rfl, notes, rfl⟩, rfl, rfl, rfl, rfl, rfl, rfl, rfl⟩ := h
  exact ⟨rfl, notes⟩

theorem SameStation.noteWork {s t : State} {j : StationId} (h : SameStation s t j) :
    NoteWork (s.station j) (t.station j) := ⟨_, _, h.note.1⟩

/-- A note that is there stays, its slots' states aside. -/
theorem SameStation.note_some {s t : State} {j : StationId} {n : NoteRecord} (h : SameStation s t j)
    (note : s.note j = some n) : ∃ m, t.note j = some m ∧ m.tag = n.tag ∧ m.number = n.number ∧ m.raised = n.raised
      ∧ m.template = n.template ∧ m.slots.length = n.slots.length := by
  obtain ⟨-, notes⟩ := h.note
  rw [note, Option.map_some, Option.map_eq_some_iff] at notes
  obtain ⟨m, is, unslotted⟩ := notes
  refine ⟨m, is, congrArg (·.tag) unslotted, congrArg (·.number) unslotted, congrArg (·.raised) unslotted,
    congrArg (·.template) unslotted, ?_⟩
  have lengths := congrArg (·.slots.length) unslotted
  simpa only [NoteRecord.unslotted, List.length_map] using lengths

section Notes
variable (s : State) (i : StationId)

theorem sameStation_evalConditions (j : StationId) : SameStation s (evalConditions s i) j :=
  (allocatorFrame_evalConditions s i).sameStation j

theorem note_noteOff : (noteOff s i).note i = none := by rw [State.note, noteOff_station]

theorem evalConditions_of_none (h : s.note i = none) : evalConditions s i = s := by
  rw [evalConditions, h]

theorem noteWork_noteOff : NoteWork (s.station i) ((noteOff s i).station i) := by
  rw [noteOff_station]
  exact ⟨_, _, rfl⟩

/-- The part with a new note's record, its conditions not yet evaluated. -/
def noteBegun (number : Nat) (raised : Bool) : State :=
  { s with tagCounter := nextTag (freeTag s 255 s.tagCounter) }.updFingering i fun g =>
    { g with note := some (newRecord s i (freeTag s 255 s.tagCounter) number raised), onsetPending := false }

theorem noteOn_eq (number : Nat) (raised : Bool) :
    noteOn s i number raised = evalConditions (noteBegun s i number raised) i := rfl

theorem station_noteBegun (number : Nat) (raised : Bool) : (noteBegun s i number raised).station i =
    { s.station i with
      fingering := { (s.station i).fingering with
        note := some (newRecord s i (freeTag s 255 s.tagCounter) number raised), onsetPending := false } } := by
  rw [noteBegun, updFingering_eq, station_updStation_self]
  rfl

theorem noteWork_noteOn (number : Nat) (raised : Bool) :
    NoteWork (s.station i) ((noteOn s i number raised).station i) := by
  refine NoteWork.trans ?_ (sameStation_evalConditions (noteBegun s i number raised) i i).noteWork
  rw [station_noteBegun]
  exact ⟨_, _, rfl⟩

theorem onset_noteOn (number : Nat) (raised : Bool) :
    ((noteOn s i number raised).station i).fingering.onsetPending = false := by
  obtain ⟨is, -⟩ := (sameStation_evalConditions (noteBegun s i number raised) i i).note
  rw [noteOn_eq, is, station_noteBegun]

theorem note_noteOn (number : Nat) (raised : Bool) : ∃ m, (noteOn s i number raised).note i = some m
    ∧ m.tag = freeTag s 255 s.tagCounter ∧ m.number = number ∧ m.raised = raised
    ∧ m.template = (newRecord s i (freeTag s 255 s.tagCounter) number raised).template
    ∧ m.slots.length = min 3 s.templates[(s.station i).settings.template].length := by
  have begun : (noteBegun s i number raised).note i =
      some (newRecord s i (freeTag s 255 s.tagCounter) number raised) := by rw [State.note, station_noteBegun]
  obtain ⟨m, is, tag, number, raised, template, slots⟩ := (sameStation_evalConditions _ i i).note_some begun
  exact ⟨m, is, tag, number, raised, template, slots.trans (length_slotsOf s _)⟩

theorem noteWork_updNote (f : NoteRecord → NoteRecord) : NoteWork (s.station i) ((s.updNote i f).station i) := by
  rw [updNote_eq, station_updStation_self]
  exact ⟨_, _, rfl⟩

theorem note_updNote (f : NoteRecord → NoteRecord) : (s.updNote i f).note i = (s.note i).map f := by
  rw [State.note, updNote_eq, station_updStation_self]
  rfl

theorem sameStation_retune (j : StationId) : SameStation s (retune s i) j :=
  (allocatorFrame_retune s i).sameStation j

end Notes

/-! ### What a number does to the note (R56, R57) -/

section Act
variable {s : State} {i : StationId} {number : Nat} {raised : Bool} {n : NoteRecord}

theorem actOnNote_of_idle (silent : s.note i = none) (idle : (s.station i).fingering.onsetPending = false) :
    actOnNote s i number raised = s := by
  simp only [actOnNote, silent, idle, Bool.false_eq_true, if_false]

theorem actOnNote_of_onset (silent : s.note i = none) (onset : (s.station i).fingering.onsetPending = true) :
    actOnNote s i number raised = noteOn s i number raised := by
  simp only [actOnNote, silent, onset, if_true]

theorem actOnNote_of_same (note : s.note i = some n) (same : n.number = number) :
    actOnNote s i number raised = s.updNote i fun m => { m with raised := raised } := by
  simp only [actOnNote, note, same, if_true]

theorem actOnNote_of_legato (note : s.note i = some n) (other : n.number ≠ number)
    (legato : (s.station i).settings.mode = .legato) :
    actOnNote s i number raised =
      evalConditions (retune (s.updNote i fun m => { m with number := number, raised := raised }) i) i := by
  simp only [actOnNote, note, other, legato, if_false]

theorem actOnNote_of_retrigger (note : s.note i = some n) (other : n.number ≠ number)
    (retrigger : (s.station i).settings.mode = .retrigger) :
    actOnNote s i number raised = noteOn (noteOff s i) i number raised := by
  simp only [actOnNote, note, other, retrigger, if_false]

theorem noteWork_actOnNote (s : State) (i : StationId) (number : Nat) (raised : Bool) :
    NoteWork (s.station i) ((actOnNote s i number raised).station i) := by
  unfold actOnNote
  split
  · split
    · exact noteWork_noteOn s i number raised
    · exact .rfl
  · split
    · exact noteWork_updNote s i _
    · split
      · exact ((noteWork_updNote s i _).trans (sameStation_retune _ i i).noteWork).trans
          (sameStation_evalConditions _ i i).noteWork
      · exact (noteWork_noteOff s i).trans (noteWork_noteOn _ i number raised)

/-- In LEGATO the note takes the number and keeps its tag. -/
theorem note_actOnNote_of_legato (note : s.note i = some n) (other : n.number ≠ number)
    (legato : (s.station i).settings.mode = .legato) :
    ∃ m, (actOnNote s i number raised).note i = some m ∧ m.tag = n.tag ∧ m.template = n.template
      ∧ m.number = number ∧ m.raised = raised := by
  have renamed : (s.updNote i fun m => { m with number := number, raised := raised }).note i =
      some { n with number := number, raised := raised } := by rw [note_updNote, note, Option.map_some]
  rw [actOnNote_of_legato note other legato]
  have same := (sameStation_retune (s.updNote i fun m => { m with number := number, raised := raised }) i i).trans
    (sameStation_evalConditions (retune (s.updNote i fun m => { m with number := number, raised := raised }) i) i i)
  obtain ⟨m, is, tag, number, raised, template, -⟩ := same.note_some renamed
  exact ⟨m, is, tag, template, number, raised⟩

theorem tagCounter_actOnNote_of_legato (note : s.note i = some n) (other : n.number ≠ number)
    (legato : (s.station i).settings.mode = .legato) : (actOnNote s i number raised).tagCounter = s.tagCounter := by
  obtain ⟨-, -, -, counter, -⟩ :=
    allocatorFrame_retune (s.updNote i fun m => { m with number := number, raised := raised }) i
  rw [actOnNote_of_legato note other legato, tagCounter_evalConditions, counter]
  rfl

/-- The tag in use does not depend on RAISED or the current entry: the notes and the pool give it. -/
theorem freeTag_congr {t : State} (used : ∀ tag, tagInUse t tag = tagInUse s tag) (fuel tag : Nat) :
    freeTag t fuel tag = freeTag s fuel tag := by
  induction fuel generalizing tag with
  | zero => rfl
  | succ fuel ih => rw [freeTag, freeTag, used, ih]

theorem tagInUse_updStation (s : State) (i : StationId) {f : Station → Station}
    (kept : (f (s.station i)).fingering.note = (s.station i).fingering.note) (tag : Nat) :
    tagInUse (s.updStation i f) tag = tagInUse s tag := by
  have notes (j : StationId) : (s.updStation i f).note j = s.note j := by
    rw [State.note, station_updStation]
    split
    · next same =>
      subst same
      exact kept
    · rfl
  simp only [tagInUse, notes]
  rfl

end Act

/-! ### Resolutions (R51, R52) -/

section Resolution
variable {s : State} {i : StationId} {e : CurrentEntry}

theorem resolution_of_some
    (found : lookup s.charts.lists[(s.station i).settings.chart] (s.station i).fingering.snapshot = some e) :
    resolution s i = resolveMatch s i e := by
  simp only [resolution, found]

theorem resolution_of_none
    (missed : lookup s.charts.lists[(s.station i).settings.chart] (s.station i).fingering.snapshot = none) :
    resolution s i = resolveMiss s i := by
  simp only [resolution, missed]

theorem keyRaise_eq (e : CurrentEntry) (snapshot : Word) :
    keyRaise e snapshot = (match e.regKey with | some k => snapshot.getLsbD k.val | none => false) := by
  unfold keyRaise
  cases e.regKey <;> rfl

/-- The station as a match leaves it before its number acts on the note. -/
def Station.matched (x : Station) (e : CurrentEntry) (raised : Bool) : Station :=
  { x with
    fingering := { x.fingering with current := some e, changed := 0 }
    breath := { x.breath with ind := { x.breath.ind with raised := raised } } }

theorem resolveMatch_eq (s : State) (i : StationId) (e : CurrentEntry) {number : Nat} {raised : Bool}
    (hn : resolvedNumber e (s.station i).fingering.snapshot (s.station i).breath.ind.excess = number)
    (hr : resolvedRaised e (s.station i).fingering.snapshot (s.station i).breath.ind.excess = raised) :
    resolveMatch s i e = actOnNote (s.updStation i fun x => x.matched e raised) i number raised := by
  unfold resolveMatch
  dsimp only
  rw [hn, hr, setRaised, updBreath_eq, updFingering_eq, updStation_updStation]
  rfl

theorem resolveMiss_eq (s : State) (i : StationId) : resolveMiss s i =
    (report s .chartMiss (some i) none ((s.note i).map NoteRecord.tag) (s.station i).fingering.snapshot).updStation i
      fun x => { x with
        fingering := { x.fingering with
          misses := min 255 (x.fingering.misses + 1), current := none, changed := 0 }
        breath := { x.breath with
          ind := { x.breath.ind with
            raised := (match (s.station i).fingering.note with | some n => n.raised | none => false) } } } := by
  unfold resolveMiss
  simp only [setRaised, updBreath_eq, updFingering_eq, updStation_updStation]
  unfold State.note
  cases (s.station i).fingering.note <;> rfl

theorem keyRaise_pressed (e : CurrentEntry) (snapshot : Word) {byKey : Bool}
    (h : byKey = (match e.regKey with | some k => snapshot.getLsbD k.val | none => false)) :
    keyRaise e snapshot = byKey := (keyRaise_eq e snapshot).trans h.symm

theorem resolvedNumber_eq {snapshot : Word} {excess byKey byBreath : Bool} {number : Nat}
    (hk : keyRaise e snapshot = byKey) (hb : byBreath = (e.breathReg && excess))
    (hn : number = min 127 (e.note + (if byKey then e.step else 0) + (if byBreath then e.step else 0))) :
    resolvedNumber e snapshot excess = number := by
  rw [resolvedNumber, hk, hn, hb]

theorem resolvedRaised_eq {snapshot : Word} {excess byKey byBreath raised : Bool}
    (hk : keyRaise e snapshot = byKey) (hb : byBreath = (e.breathReg && excess))
    (hr : raised = ((byKey || byBreath) && decide (0 < e.step))) : resolvedRaised e snapshot excess = raised := by
  rw [resolvedRaised, hk, hr, hb]

end Resolution

/-- Settles O44: by whether the lookup finds an entry, and then by what the number does to the note. -/
theorem resolutionSettlesTheNote : Obligations.ResolutionSettlesTheNote := by
  unfold Obligations.ResolutionSettlesTheNote
  rintro s _ i _ rfl rfl
  refine ⟨engineFrame_resolution s i, fun missed => ?miss, ?hit⟩
  case miss =>
    rw [resolution_of_none missed, resolveMiss_eq]
    exact ⟨⟨rfl, rfl, rfl, rfl, rfl⟩, rfl, (station_updStation_self _ i _).trans rfl⟩
  case hit =>
    intro e byKey byBreath raised number found hk hb hr hn
    have key := keyRaise_pressed e (s.station i).fingering.snapshot hk
    have matched := (resolution_of_some found).trans
      (resolveMatch_eq s i e (resolvedNumber_eq key hb hn) (resolvedRaised_eq key hb hr))
    obtain ⟨u, hu⟩ : ∃ u, u = s.updStation i fun x => x.matched e raised := ⟨_, rfl⟩
    have station : u.station i = (s.station i).matched e raised := by rw [hu, station_updStation_self]
    have note : u.note i = (s.station i).fingering.note := by
      rw [State.note, station]
      rfl
    have onset : (u.station i).fingering.onsetPending = (s.station i).fingering.onsetPending := by
      rw [station]
      rfl
    have mode : (u.station i).settings.mode = (s.station i).settings.mode := by
      rw [station]
      rfl
    have pool : SamePool s u := by
      rw [hu]
      exact samePool_updStation s i _
    have faults : u.faults = s.faults := by rw [hu, faults_updStation]
    rw [← hu] at matched
    rw [matched]
    refine ⟨?fields, ?acts, fun silent idle => ?idle, fun silent waits => ?onset, fun n sounding =>
      ⟨fun same => ?same, fun other legato => ?legato, fun other retrigger => ?retrigger⟩⟩
    case fields =>
      obtain ⟨_, _, worked⟩ := noteWork_actOnNote u i number raised
      rw [worked, station]
      exact ⟨rfl, rfl, rfl, rfl, rfl, rfl⟩
    case acts =>
      rintro _ rfl
      have named : (s.updStation i fun x =>
          { x with
            fingering := { x.fingering with current := some e, changed := 0 }
            breath := { x.breath with ind := { x.breath.ind with raised := raised } } }) = u := hu.symm
      rw [named]
      exact ⟨fun silent idle => actOnNote_of_idle (note.trans silent) (onset.trans idle),
        fun silent waits => actOnNote_of_onset (note.trans silent) (onset.trans waits), fun n sounding =>
          ⟨fun same => actOnNote_of_same (note.trans sounding) same,
            fun other legato => actOnNote_of_legato (note.trans sounding) other (mode.trans legato),
            fun other retrigger => actOnNote_of_retrigger (note.trans sounding) other (mode.trans retrigger)⟩⟩
    case idle =>
      rw [actOnNote_of_idle (note.trans silent) (onset.trans idle)]
      exact ⟨note.trans silent, pool, faults⟩
    case onset =>
      rw [actOnNote_of_onset (note.trans silent) (onset.trans waits)]
      obtain ⟨m, is, tag, number, raised, template, slots⟩ := note_noteOn u i number raised
      have used (tag : Nat) : tagInUse u tag = tagInUse s tag := by
        rw [hu]
        exact tagInUse_updStation s i rfl tag
      have templates : u.templates[(u.station i).settings.template] =
          s.templates[(s.station i).settings.template] := by
        have stored : u.templates = s.templates := by rw [hu]; rfl
        have named : (u.station i).settings.template = (s.station i).settings.template := by rw [station]; rfl
        simp only [stored, named]
      refine ⟨onset_noteOn u i _ _, m, is, number, raised, ?_, by rw [slots, templates], fun defined => ?_⟩
      · rw [tag, freeTag_congr used, pool.2.2.2.2]
      · rw [template, newRecord, templates, if_neg defined, station]
        rfl
    case same =>
      rw [actOnNote_of_same (note.trans sounding) same, note_updNote, note, sounding]
      exact ⟨rfl, pool.trans (samePool_updStation u i _), faults⟩
    case legato =>
      obtain ⟨m, is, tag, template, number, raised⟩ :=
        note_actOnNote_of_legato (raised := raised) (note.trans sounding) other (mode.trans legato)
      exact ⟨m, is, tag, template, number, raised,
        (tagCounter_actOnNote_of_legato (note.trans sounding) other (mode.trans legato)).trans pool.2.2.2.2⟩
    case retrigger =>
      rw [actOnNote_of_retrigger (note.trans sounding) other (mode.trans retrigger)]
      obtain ⟨m, is, tag, number, raised, -⟩ := note_noteOn (noteOff u i) i number raised
      refine ⟨onset_noteOn _ i _ _, m, is, number, raised, ?_⟩
      rw [tagCounter_noteOn, tag, nextTag]

end Sys2Proof.Machine
end

section
/-! A PLAY performed (O43). -/

namespace Sys2Proof.Machine

/-! ### The snapshot and its edges (R45, R46) -/

section Keys

theorem getLsbD_maskKeys (count : Nat) (keys : Word) (k : KeyId) :
    (maskKeys count keys).getLsbD k.val = (decide (k.val < count) && keys.getLsbD k.val) := by
  rw [maskKeys, BitVec.getLsbD_and, BitVec.getLsbD_ofNat, Nat.testBit_two_pow_sub_one, Bool.and_comm]
  simp

theorem maskKeys_eq {count : Nat} {keys now : Word} (h : SnapshotOf count keys now) : maskKeys count keys = now := by
  rw [eq_iff_getLsbD]
  intro k
  rw [getLsbD_maskKeys, h k]

theorem covers_iff (sense : KeySense) (press : Bool) :
    (if press then sense.coversPress else sense.coversRelease) = true ↔ CoversEdge sense press := by
  cases sense <;> cases press <;> simp [CoversEdge, KeySense.coversPress, KeySense.coversRelease]

theorem coveredEdge_iff (x : Station) (now : Word) :
    coveredEdge x.keySense (x.fingering.snapshot ^^^ now) now = true ↔ BringsCovered x now := by
  rw [coveredEdge, List.any_eq_true]
  have edge (k : KeyId) : ((x.fingering.snapshot ^^^ now).getLsbD k.val
      && (if now.getLsbD k.val then x.keySense[k].coversPress else x.keySense[k].coversRelease)) = true ↔
      x.fingering.snapshot.getLsbD k.val ≠ now.getLsbD k.val ∧ CoversEdge x.keySense[k] (now.getLsbD k.val) := by
    rw [Bool.and_eq_true, covers_iff, BitVec.getLsbD_xor, bne_iff_ne]
  exact ⟨fun ⟨k, _, h⟩ => ⟨k, (edge k).1 h⟩, fun ⟨k, h⟩ => ⟨k, List.mem_finRange k, (edge k).2 h⟩⟩

theorem xor_ne_zero_iff (a b : Word) : ((a ^^^ b) != 0) = true ↔ a ≠ b := by
  rw [bne_iff_ne]
  exact not_congr BitVec.xor_eq_zero_iff

end Keys

/-! ### The frame begun (R54 steps 1 to 3) -/

section Begin
variable {s : State} {i : StationId} {now : Word} {b : Breath}

/-- A station that performs the frame in its buffer, coming from LIVE or LOST (R133, R150). -/
def Station.performing (x : Station) : Station :=
  { x with
    state := .live
    link := { x.link with
      buffer := none
      silence := if x.state = .lost then .running 1152 else x.link.silence } }

/-- The changes a frame brings with its snapshot and its breath computation. -/
def changesOf (x : Station) (b : Breath) (now : Word) : FrameChanges where
  changed := x.fingering.snapshot ^^^ now
  covered := coveredEdge x.keySense (x.fingering.snapshot ^^^ now) now
  onset := !x.breath.ind.gate && b.ind.gate
  ended := x.breath.ind.gate && !b.ind.gate
  excess := x.breath.ind.excess != b.ind.excess

/-- The settle timer after a frame (R48). -/
def settleOf (x : Station) (now : Word) : Timer :=
  settleAfter (coveredEdge x.keySense (x.fingering.snapshot ^^^ now) now) x.settings.settle x.fingering.settle

theorem settleOf_of_covered {x : Station} (covered : BringsCovered x now) :
    settleOf x now = if x.settings.settle = 0 then .stopped else .running (12 * x.settings.settle) := by
  rw [settleOf, (coveredEdge_iff x now).2 covered, settleAfter, if_pos rfl, Nat.mul_comm]

theorem settleOf_of_uncovered {x : Station} (uncovered : ¬ BringsCovered x now) :
    settleOf x now = x.fingering.settle :=
  if_neg fun covered => uncovered ((coveredEdge_iff x now).1 covered)

/-- The part with the breath computation published and the keys taken. -/
def keysTaken (s : State) (i : StationId) (now : Word) (b : Breath) : State :=
  s.updStation i fun x =>
    { x with
      state := .live
      breath := b
      fingering := { x.fingering with
        snapshot := now, changed := x.fingering.changed ||| (x.fingering.snapshot ^^^ now) }
      link := { x.link with
        buffer := none
        silence := if x.state = .lost then .running 1152 else x.link.silence } }

/-- The part after steps 1 to 3 of a frame's work. -/
def frameBegun (s : State) (i : StationId) (now : Word) (b : Breath) : State :=
  (if (changesOf (s.station i) b now).ended then endNote (keysTaken s i now b) i else keysTaken s i now b).updStation i
    fun x =>
      { x with
        fingering := { x.fingering with
          settle := settleOf (s.station i) now
          onsetPending := x.fingering.onsetPending || (!(s.station i).breath.ind.gate && b.ind.gate) } }

theorem ended_iff (x : Station) (b : Breath) (now : Word) :
    (changesOf x b now).ended = true ↔ x.breath.ind.gate = true ∧ b.ind.gate = false := by
  rw [changesOf, Bool.and_eq_true, Bool.not_eq_true']

theorem frameBegun_spec (s : State) (i : StationId) (now : Word) (b : Breath) :
    FrameBegun s (frameBegun s i now b) i now b := by
  refine ⟨keysTaken s i now b, settleOf (s.station i) now,
    ⟨fun covered => settleOf_of_covered covered, fun uncovered => settleOf_of_uncovered uncovered⟩, rfl, _, ?_, rfl⟩
  refine ite_congr (propext (ended_iff (s.station i) b now)) (fun _ => ?_) fun _ => rfl
  rw [endNote, updFingering_eq]

theorem station_keysTaken (s : State) (i : StationId) (now : Word) (b : Breath) : (keysTaken s i now b).station i =
    { s.station i with
      state := .live
      breath := b
      fingering := { (s.station i).fingering with
        snapshot := now
        changed := (s.station i).fingering.changed ||| ((s.station i).fingering.snapshot ^^^ now) }
      link := (s.station i).performing.link } := by
  rw [keysTaken, station_updStation_self]
  rfl

theorem station_endNote (s : State) (i : StationId) : (endNote s i).station i =
    { s.station i with fingering := { (s.station i).fingering with note := none, onsetPending := false } } := by
  rw [endNote, updFingering_eq, station_updStation_self, noteOff_station]

theorem station_frameBegun (s : State) (i : StationId) (now : Word) (b : Breath) : (frameBegun s i now b).station i =
    { s.station i with
      state := .live
      breath := b
      fingering := { (s.station i).fingering with
        snapshot := now
        changed := (s.station i).fingering.changed ||| ((s.station i).fingering.snapshot ^^^ now)
        settle := settleOf (s.station i) now
        note := if (changesOf (s.station i) b now).ended then none else (s.station i).fingering.note
        onsetPending :=
          (if (changesOf (s.station i) b now).ended then false else (s.station i).fingering.onsetPending)
            || (!(s.station i).breath.ind.gate && b.ind.gate) }
      link := (s.station i).performing.link } := by
  rw [frameBegun, station_updStation_self]
  cases (changesOf (s.station i) b now).ended with
  | true => rw [if_pos rfl, if_pos rfl, if_pos rfl, station_endNote, station_keysTaken]
  | false =>
    simp only [Bool.false_eq_true, if_false]
    rw [station_keysTaken]

/-- At a fall of GATE the frame begins with no note and no onset waiting (R58). -/
theorem silent_frameBegun (was : (s.station i).breath.ind.gate = true) (fell : b.ind.gate = false) (now : Word) :
    ¬ ((frameBegun s i now b).station i).fingering.noteOrOnset := by
  rw [station_frameBegun, (ended_iff _ b now).2 ⟨was, fell⟩]
  simp [Fingering.noteOrOnset, fell]

theorem engineFrame_frameBegun (s : State) (i : StationId) (now : Word) (b : Breath) :
    EngineFrame s (frameBegun s i now b) i := by
  refine EngineFrame.trans ?_ (engineFrame_updStation _ i _)
  split
  · exact (engineFrame_updStation s i _).trans (engineFrame_endNote _ i)
  · exact engineFrame_updStation s i _

theorem tagCounter_noteOff (s : State) (i : StationId) : (noteOff s i).tagCounter = s.tagCounter := by
  unfold noteOff
  split
  · next n _ =>
    obtain ⟨-, -, -, counter, -⟩ := AllocatorFrame.foldl _ (fun s x => allocatorFrame_endSlot i n.tag s x) n.slots s
    exact counter
  · rfl

theorem tagCounter_frameBegun (s : State) (i : StationId) (now : Word) (b : Breath) :
    (frameBegun s i now b).tagCounter = s.tagCounter := by
  have kept : (if (changesOf (s.station i) b now).ended then endNote (keysTaken s i now b) i
      else keysTaken s i now b).tagCounter = s.tagCounter := by
    split
    · exact tagCounter_noteOff (keysTaken s i now b) i
    · rfl
  exact kept

end Begin

/-! ### Whether a resolution is called for (R48, R49, R53, R55) -/

theorem pending_settleOf {x : Station} {now : Word} : (!(settleOf x now).pending) = true ↔
    (BringsCovered x now ∧ x.settings.settle = 0) ∨ (¬ BringsCovered x now ∧ x.fingering.settle = .stopped) := by
  rw [Timer.pending, Bool.not_eq_true', bne_eq_false_iff_eq]
  by_cases covered : BringsCovered x now
  · rw [settleOf_of_covered covered]
    by_cases zero : x.settings.settle = 0 <;> simp [zero, covered]
  · rw [settleOf_of_uncovered covered]
    simp [covered]

theorem callsResolution_iff {x : Station} {b : Breath} {now : Word} {g : Fingering}
    (settle : g.settle = settleOf x now) (current : g.current = x.fingering.current) :
    callsResolution (changesOf x b now) x.settings.settle g = true ↔ CallsForResolution x b now := by
  have onset : (changesOf x b now).onset = true ↔ x.breath.ind.gate = false ∧ b.ind.gate = true := by
    rw [changesOf, Bool.and_eq_true, Bool.not_eq_true']
  have covered : (changesOf x b now).covered = true ↔ BringsCovered x now := coveredEdge_iff x now
  have changed : ((changesOf x b now).changed != 0) = true ↔ x.fingering.snapshot ≠ now := xor_ne_zero_iff _ _
  have excess : (changesOf x b now).excess = true ↔ x.breath.ind.excess ≠ b.ind.excess := bne_iff_ne
  rw [callsResolution, settle, current]
  simp only [Bool.or_eq_true, or_assoc]
  refine or_congr onset (or_congr ?instant (or_congr ?uncovered ?excess))
  case instant => rw [Bool.and_eq_true, covered, beq_iff_eq]
  case uncovered =>
    rw [Bool.and_eq_true, Bool.and_eq_true, changed, and_assoc, Bool.not_eq_true', ← Bool.not_eq_true, covered,
      pending_settleOf]
    refine and_congr_right fun _ => and_congr_right fun open_ => ?_
    simp [open_]
  case excess =>
    rw [Bool.and_eq_true, Bool.and_eq_true, excess, and_assoc, pending_settleOf]
    refine and_congr_right fun _ => and_congr_right fun _ => ?_
    cases x.fingering.current <;> simp

/-! ### The work on the frame (R54 steps 4 to 6) -/

section Perform
variable {s : State} {i : StationId} {seq br lip : Nat} {keys now : Word} {b : Breath}

theorem takePlay_performs (h : (s.station i).state = .live ∨ (s.station i).state = .lost) :
    takePlay (dropBuffer s i) i keys br lip seq = performFrame (s.updStation i Station.performing) i keys br lip seq := by
  rcases h with live | lost
  · have state : ((dropBuffer s i).station i).state = .live := by rw [station_dropBuffer]; exact live
    have entered : dropBuffer s i = s.updStation i Station.performing :=
      updStation_congr (f := fun x => { x with link := { x.link with buffer := none } })
        (by rw [Station.performing, live]; rfl)
    rw [takePlay, state, ← entered]
  · have state : ((dropBuffer s i).station i).state = .lost := by rw [station_dropBuffer]; exact lost
    have entered : startSilence ((dropBuffer s i).updStation i fun x => { x with state := .live }) i =
        s.updStation i Station.performing := by
      rw [startSilence, dropBuffer, updLink_eq, updLink_eq, updStation_updStation, updStation_updStation]
      exact updStation_congr (by rw [Station.performing, lost]; rfl)
    rw [takePlay, state, ← entered]

theorem frameChanges_performing (snapshot : SnapshotOf (s.station i).keyCount keys now) :
    frameChanges (s.station i).performing { (s.station i).performing with breath := b } keys =
      changesOf (s.station i) b now := by
  have mask : maskKeys (s.station i).keyCount keys = now := maskKeys_eq snapshot
  rw [frameChanges]
  simp only [Station.performing, mask]
  rfl

theorem beginFrame_performing (snapshot : SnapshotOf (s.station i).keyCount keys now) :
    beginFrame (s.updStation i fun x => { x.performing with breath := b }) i (changesOf (s.station i) b now) keys =
      frameBegun s i now b := by
  have mask : maskKeys (s.station i).keyCount keys = now := maskKeys_eq snapshot
  have station : ((s.updStation i fun x => { x.performing with breath := b }).station i) =
      { (s.station i).performing with breath := b } := station_updStation_self s i _
  have taken : takeKeys (s.updStation i fun x => { x.performing with breath := b }) i
      (changesOf (s.station i) b now).changed now = keysTaken s i now b := by
    rw [takeKeys, updFingering_eq, updStation_updStation]
    exact updStation_congr rfl
  have count : ((s.updStation i fun x => { x.performing with breath := b }).station i).keyCount =
      (s.station i).keyCount := by
    rw [station]
    rfl
  unfold beginFrame frameBegun
  rw [count, mask, taken]
  refine updStation_congr ?_
  have kept : ((if (changesOf (s.station i) b now).ended then endNote (keysTaken s i now b) i
      else keysTaken s i now b).station i).settings.settle = (s.station i).settings.settle
      ∧ ((if (changesOf (s.station i) b now).ended then endNote (keysTaken s i now b) i
        else keysTaken s i now b).station i).fingering.settle = (s.station i).fingering.settle := by
    split
    · rw [station_endNote, station_keysTaken]
      exact ⟨rfl, rfl⟩
    · rw [station_keysTaken]
      exact ⟨rfl, rfl⟩
  rw [kept.1, kept.2]
  rfl

/-- The performed frame, by whether it calls for a resolution. -/
theorem performFrame_performing (snapshot : SnapshotOf (s.station i).keyCount keys now)
    (computed : b = breathStep (s.station i).settings (s.station i).breath (min 4095 br) (min 4095 lip)) :
    performFrame (s.updStation i Station.performing) i keys br lip seq =
      if callsResolution (changesOf (s.station i) b now) ((frameBegun s i now b).station i).settings.settle
          ((frameBegun s i now b).station i).fingering then
        resolveOrStall (frameBegun s i now b) i (.frame seq)
      else finishWork (frameBegun s i now b) i (.frame seq) := by
  have published : computeBreath (s.updStation i Station.performing) i br lip =
      s.updStation i fun x => { x.performing with breath := b } := by
    rw [computeBreath, updStation_updStation, computed]
    exact updStation_congr rfl
  unfold performFrame fingerFrame
  dsimp only
  rw [published, station_updStation_self, station_updStation_self, frameChanges_performing snapshot,
    beginFrame_performing snapshot]

end Perform

/-- Station y is x after a frame's resolution and what follows it: resolved, no note or onset begun that x had not,
stalled or its reply falling due. -/
def FrameWorked (x y : Station) : Prop :=
  ∃ z stall link, Resolved x z ∧ (z.fingering.noteOrOnset → x.fingering.noteOrOnset)
    ∧ y = { z with stall := stall, link := link }

section Work
variable (s : State) (i : StationId) (seq : Nat)

theorem station_finishWork_frame : (finishWork s i (.frame seq)).station i =
    { (evalConditions s i).station i with
      link := ((evalConditions s i).station i).link.queueReply (replyOf ((evalConditions s i).station i) seq) } := by
  rw [finishWork_frame, replyDue, station_updStation_self]

theorem frameWorked_finishWork {x : Station} (worked : Resolved x (s.station i))
    (goes : (s.station i).fingering.noteOrOnset → x.fingering.noteOrOnset) :
    FrameWorked x ((finishWork s i (.frame seq)).station i) :=
  ⟨_, _, _, worked.trans (resolved_evalConditions s i), fun h => goes ((goesOn_evalConditions s i).note h),
    station_finishWork_frame s i seq⟩

theorem frameWorked_resolveOrStall : FrameWorked (s.station i) ((resolveOrStall s i (.frame seq)).station i) := by
  unfold resolveOrStall
  split
  · exact ⟨_, _, _, .rfl, id, station_updStation_self s i _⟩
  · exact frameWorked_finishWork _ i seq (resolved_resolution s i) (goesOn_resolution s i).note

theorem changed_resolution : ((resolution s i).station i).fingering.changed = 0 := by
  cases found : lookup s.charts.lists[(s.station i).settings.chart] (s.station i).fingering.snapshot with
  | none => rw [resolution_of_none found, resolveMiss_eq, station_updStation_self]
  | some e =>
    rw [resolution_of_some found, resolveMatch_eq s i e rfl rfl]
    obtain ⟨_, _, worked⟩ := noteWork_actOnNote
      (s.updStation i fun x => x.matched e (resolvedRaised e (s.station i).fingering.snapshot
        (s.station i).breath.ind.excess)) i
      (resolvedNumber e (s.station i).fingering.snapshot (s.station i).breath.ind.excess)
      (resolvedRaised e (s.station i).fingering.snapshot (s.station i).breath.ind.excess)
    rw [worked, station_updStation_self]
    rfl

/-- Finished work leaves the stall and the changed keys, and its REPLY is that of the station as it stands. -/
theorem finishWork_replies : (((finishWork s i (.frame seq)).station i).stall = (s.station i).stall
    ∧ ((finishWork s i (.frame seq)).station i).fingering.changed = (s.station i).fingering.changed)
    ∧ ∃ r, IsReply r ((finishWork s i (.frame seq)).station i) seq
      ∧ ((finishWork s i (.frame seq)).station i).link = (s.station i).link.queueReply r := by
  obtain ⟨is, -⟩ := (sameStation_evalConditions s i i).note
  rw [station_finishWork_frame]
  refine ⟨?_, replyOf ((evalConditions s i).station i) seq, isReply_replyOf ((evalConditions s i).station i) seq, ?_⟩
  · rw [is]
    exact ⟨rfl, rfl⟩
  · rw [(resolved_evalConditions s i).link]

end Work

/-- Settles O43: the frame begun, and then by whether it calls for a resolution and the chart is free for one. -/
theorem playIsPerformed : Obligations.PlayIsPerformed := by
  unfold Obligations.PlayIsPerformed
  intro s i seq br lip keys now b buffer free state computed snapshot
  obtain ⟨u, hu⟩ : ∃ u, u = frameBegun s i now b := ⟨_, rfl⟩
  obtain ⟨t, ht⟩ : ∃ t, t = performFrame (s.updStation i Station.performing) i keys br lip seq := ⟨_, rfl⟩
  have means : exec (.play i) s = .next t := by
    rw [exec_play_of_taken buffer free (by rcases state with h | h <;> (rw [h]; decide))
      (by rcases state with h | h <;> (rw [h]; decide)), takePlay_performs state, ht]
  have station : u.station i = _ := (congrArg (·.station i) hu).trans (station_frameBegun s i now b)
  have chart : u.charts.busy (u.station i).settings.chart = s.charts.busy (s.station i).settings.chart := by
    obtain ⟨⟨charts, -⟩, -⟩ := engineFrame_frameBegun s i now b
    rw [station, hu, charts]
  have calls : callsResolution (changesOf (s.station i) b now) (u.station i).settings.settle (u.station i).fingering =
      true ↔ CallsForResolution (s.station i) b now := by
    rw [station]
    exact callsResolution_iff rfl rfl
  have performed := performFrame_performing (seq := seq) snapshot computed
  rw [← ht, ← hu] at performed
  have called : CallsForResolution (s.station i) b now → t = resolveOrStall u i (.frame seq) := fun h => by
    rw [performed, if_pos (calls.2 h)]
  have uncalled : ¬ CallsForResolution (s.station i) b now → t = finishWork u i (.frame seq) := fun h => by
    rw [performed, if_neg fun c => h (calls.1 c)]
  have resolves (h : CallsForResolution (s.station i) b now)
      (idle : s.charts.busy (s.station i).settings.chart = false) : t = finishWork (resolution u i) i (.frame seq) := by
    rw [called h, resolveOrStall_of_idle _ (chart.trans idle)]
  have stalls (h : CallsForResolution (s.station i) b now)
      (busy : s.charts.busy (s.station i).settings.chart = true) :
      t = u.updStation i fun x => { x with stall := some (.frame seq) } := by
    rw [called h, resolveOrStall_of_busy _ (chart.trans busy)]
  have worked : FrameWorked (u.station i) (t.station i) := by
    by_cases h : CallsForResolution (s.station i) b now
    · rw [called h]
      exact frameWorked_resolveOrStall u i seq
    · rw [uncalled h]
      exact frameWorked_finishWork u i seq .rfl id
  obtain ⟨z, stall, link, ⟨raised, changed, onset, current, note, misses, rfl⟩, goes, is⟩ := worked
  refine ⟨t, means, ?frame, ?kept, ⟨raised, by rw [is, station]⟩, by rw [is, station],
    ⟨fun covered => ?covered, fun uncovered => ?uncovered⟩, fun was fell => ?ends, fun h => ?unresolved,
    fun h idle => ?resolved, ⟨u, hu ▸ frameBegun_spec s i now b, stalls, fun h idle => ?_, fun h => ?_⟩,
    fun h busy => ?stalled, fun h => ?replied⟩
  case frame =>
    rw [ht]
    exact (engineFrame_updStation s i _).trans (engineFrame_performFrame _ i keys br lip seq)
  case kept =>
    rw [is, station]
    exact ⟨rfl, rfl, rfl, rfl, rfl, rfl, rfl⟩
  case covered =>
    rw [is, station]
    exact settleOf_of_covered covered
  case uncovered =>
    rw [is, station]
    exact settleOf_of_uncovered uncovered
  case ends =>
    have silent : ¬ (u.station i).fingering.noteOrOnset := by
      rw [hu]
      exact silent_frameBegun was fell now
    have still := mt goes silent
    rw [Fingering.noteOrOnset, not_or, Bool.not_eq_true, Bool.not_eq_true, Option.isSome_eq_false_iff,
      Option.isNone_iff_eq_none] at still
    rw [State.note, is]
    exact still
  case unresolved =>
    obtain ⟨same, -⟩ := (sameStation_evalConditions u i i).note
    rw [uncalled h, station_finishWork_frame, same, station, finishWork_frame, replyDue]
    have raised : b.ind.raised = (s.station i).breath.ind.raised := by
      rw [computed]
      rfl
    exact ⟨rfl, rfl, rfl, raised, (tagCounter_evalConditions u i).trans (hu ▸ tagCounter_frameBegun s i now b)⟩
  case resolved =>
    rw [resolves h idle, (finishWork_replies _ i seq).1.2, changed_resolution]
  · rw [resolves h idle, finishWork_frame]
    exact endsWithReply_replyDue _ i seq
  · rw [uncalled h, finishWork_frame]
    exact endsWithReply_replyDue _ i seq
  case stalled =>
    rw [stalls h busy, station_updStation_self, station]
    exact ⟨rfl, rfl, rfl⟩
  case replied =>
    have begun : (u.station i).stall = none ∧ (u.station i).link = (s.station i).performing.link := by
      rw [station]
      exact ⟨stall_of_engineFree free, rfl⟩
    have finished : ∃ e, t = finishWork e i (.frame seq) ∧ (e.station i).stall = none
        ∧ (e.station i).link = (s.station i).performing.link := by
      by_cases resolve : CallsForResolution (s.station i) b now
      · have idle := h.resolve_left fun none => none resolve
        refine ⟨resolution u i, resolves resolve idle, ?_, ?_⟩
        · rw [(resolved_resolution u i).stall, begun.1]
        · rw [(resolved_resolution u i).link, begun.2]
      · exact ⟨u, uncalled resolve, begun.1, begun.2⟩
    obtain ⟨e, te, unstalled, linked⟩ := finished
    obtain ⟨⟨stall, -⟩, r, reply, queued⟩ := finishWork_replies e i seq
    rw [← te] at stall reply queued
    exact ⟨stall.trans unstalled, r, reply, queued.trans (by rw [linked]; rfl)⟩

end Sys2Proof.Machine
end

section
/-! The receiver's line and its characters (O37). -/

namespace Sys2Proof.Machine

/-! ### What a complete character leaves of the receiver -/

/-- Bit time and character in assembly are the same. -/
def SameHearing (x y : Station) : Prop :=
  y.link.bitTime = x.link.bitTime ∧ y.link.character = x.link.character

theorem SameHearing.refl (x : Station) : SameHearing x x := ⟨rfl, rfl⟩

theorem SameHearing.trans {x y z : Station} (h : SameHearing x y) (k : SameHearing y z) : SameHearing x z :=
  ⟨k.1.trans h.1, k.2.trans h.2⟩

section Hearing
variable (s : State) (i : StationId)

theorem sameHearing_updLink (f : Link → Link) (time : (f (s.station i).link).bitTime = (s.station i).link.bitTime)
    (character : (f (s.station i).link).character = (s.station i).link.character) :
    SameHearing (s.station i) ((s.updLink i f).station i) := by
  rw [updLink_eq, station_updStation_self]
  exact ⟨time, character⟩

theorem sameHearing_updCounters (f : LinkCounters → LinkCounters) :
    SameHearing (s.station i) ((s.updCounters i f).station i) := sameHearing_updLink s i _ rfl rfl

theorem sameHearing_protocolFault (cause : Nat) (ch : Byte) (gathered : Nat) :
    SameHearing (s.station i) ((protocolFault s i cause ch gathered).station i) := by
  rw [protocolFault, station_report]
  exact sameHearing_updCounters s i _

theorem sameHearing_acceptFrame (f : Frame) (missed : Nat) :
    SameHearing (s.station i) ((acceptFrame s i f missed).station i) := by
  unfold acceptFrame
  dsimp only
  split
  · exact (sameHearing_updLink s i _ rfl rfl).trans (sameHearing_updLink _ i _ rfl rfl)
  · exact sameHearing_updLink s i _ rfl rfl

theorem sameHearing_completeFrame (a : FrameAssembly) :
    SameHearing (s.station i) ((completeFrame s i a).station i) := by
  unfold completeFrame windowFrame
  split
  · split
    · exact sameHearing_updCounters s i _
    · split
      · exact sameHearing_acceptFrame s i _ _
      · exact .refl _
  · rw [station_report]
    exact sameHearing_updCounters s i _

theorem sameHearing_dropIncomplete : SameHearing (s.station i) ((dropIncomplete s i).station i) := by
  unfold dropIncomplete
  split
  · exact .refl _
  · exact (sameHearing_updLink s i _ rfl rfl).trans (sameHearing_protocolFault _ i _ _ _)

theorem sameHearing_takeCharacter (d : Byte) (mark : Bool) :
    SameHearing (s.station i) ((takeCharacter s i d mark).station i) := by
  unfold takeCharacter beginAssembly takeData
  split
  · split
    · exact .refl _
    · refine (sameHearing_dropIncomplete s i).trans ?_
      split
      · exact sameHearing_updLink _ i _ rfl rfl
      · exact sameHearing_protocolFault _ i _ _ _
  · split
    · exact sameHearing_protocolFault s i _ _ _
    · dsimp only
      split
      · exact (sameHearing_updLink s i _ rfl rfl).trans (sameHearing_completeFrame _ i _)
      · exact sameHearing_updLink s i _ rfl rfl

theorem sameHearing_endCharacter (bits : List Bool) :
    SameHearing (s.station i) ((endCharacter s i bits).station i) := by
  unfold endCharacter
  split
  · exact sameHearing_takeCharacter s i _ _
  · rw [framingError, station_report]
    exact (sameHearing_updLink s i _ rfl rfl).trans (sameHearing_updCounters _ i _)

theorem bitTime_setCharacter (c : CharacterAssembly) :
    ((setCharacter s i c).station i).link.bitTime = (s.station i).link.bitTime := by
  rw [setCharacter, updLink_eq, station_updStation_self]

theorem bitTime_hearLevels (T : Nat) (c : CharacterAssembly) (levels : List Bool) :
    ((hearLevels i T c s levels).station i).link.bitTime = (s.station i).link.bitTime := by
  induction levels generalizing c s with
  | nil => exact bitTime_setCharacter s i c
  | cons level levels ih =>
    rw [hearLevels]
    split
    · exact ih s _
    · rw [ih, (sameHearing_endCharacter _ i _).1, bitTime_setCharacter]

theorem lineIgnored_hearLevels (T : Nat) (c : CharacterAssembly) (levels : List Bool) :
    lineIgnored (hearLevels i T c s levels) i = lineIgnored s i := by
  obtain ⟨-, ⟨-, -, clear, reset, -⟩, -⟩ := engineFrame_hearLevels i T c s levels
  have received := receives_hearLevels s i T c levels
  rw [lineIgnored, lineIgnored, clear, reset, received.link]

end Hearing

/-! ### The row (R141; log 19) -/

section Row
variable {s : State} {i : StationId} {T : Nat} {c : Instr} {levels : List Bool}

theorem exec_line_ignored (h : lineIgnored s i = true) (line : GivesLine c i levels) : exec c s = .next s := by
  obtain ⟨start, data, mark, stop, rfl, -⟩ := line
  exact if_pos h

theorem exec_line_untimed (time : (s.station i).link.bitTime = none) (line : GivesLine c i levels) :
    exec c s = .next s := by
  obtain ⟨start, data, mark, stop, rfl, -⟩ := line
  change execCharacter i start data mark stop s = _
  unfold execCharacter
  rw [time]
  exact ite_self _

theorem exec_line_heard (listens : lineIgnored s i = false) (time : (s.station i).link.bitTime = some T)
    (line : GivesLine c i levels) : exec c s = .next (hearLevels i T (s.station i).link.character s levels) := by
  obtain ⟨start, data, mark, stop, rfl, rfl⟩ := line
  change execCharacter i start data mark stop s = _
  unfold execCharacter
  rw [listens, time]
  rfl

theorem lineIgnored_of_listens (h : Listens s i) : lineIgnored s i = false := by
  obtain ⟨clear, reset, state, -⟩ := h
  rw [lineIgnored, clear, reset, beq_false_of_ne state]
  rfl

theorem exec_line_deaf (h : ¬ Listens s i) (line : GivesLine c i levels) : exec c s = .next s := by
  cases ignored : lineIgnored s i with
  | true => exact exec_line_ignored ignored line
  | false =>
    rw [lineIgnored, Bool.or_eq_false_iff, Bool.or_eq_false_iff, beq_eq_false_iff_ne] at ignored
    obtain ⟨⟨clear, reset⟩, state⟩ := ignored
    have untimed : (s.station i).link.bitTime = none :=
      Classical.byContradiction fun timed => h ⟨clear, reset, state, timed⟩
    exact exec_line_untimed untimed line

/-- A row in two parts is heard as in one. -/
theorem exec_line_append {t : State} {c1 c2 : Instr} {before after : List Bool} (first : GivesLine c1 i before)
    (second : GivesLine c2 i after) (both : GivesLine c i (before ++ after)) (next : exec c1 s = .next t) :
    exec c s = exec c2 t := by
  cases ignored : lineIgnored s i with
  | true =>
    rw [exec_line_ignored ignored first] at next
    cases next
    rw [exec_line_ignored ignored both, exec_line_ignored ignored second]
  | false =>
    cases time : (s.station i).link.bitTime with
    | none =>
      rw [exec_line_untimed time first] at next
      cases next
      rw [exec_line_untimed time both, exec_line_untimed time second]
    | some T =>
      rw [exec_line_heard ignored time first] at next
      cases next
      rw [exec_line_heard ignored time both, hearLevels_append,
        exec_line_heard (by rw [lineIgnored_hearLevels]; exact ignored)
          ((bitTime_hearLevels s i T _ before).trans time) second]

end Row

/-! ### Waiting for a 1 after a framing error (R141) -/

section HeldLow
variable {s : State} {i : StationId} {T : Nat}

/-- A line held at 0 ends no wait. -/
theorem hearLevels_low {levels : List Bool} (low : ∀ b ∈ levels, b = false) {e : Nat} (he : e < T) :
    ∃ e', e' < T ∧ hearLevels i T (.heldLow e) s levels = setCharacter s i (.heldLow e') := by
  induction levels generalizing e with
  | nil => exact ⟨e, he, rfl⟩
  | cons b levels ih =>
    have zero : b = false := low b (List.mem_cons_self ..)
    subst zero
    rw [hearLevels_cons (hear_heldLow_false T e)]
    refine ih (fun b hb => low b (List.mem_cons_of_mem _ hb)) ?_
    split <;> omega

/-- After the rest of a bit time the line's level ends the wait or begins another bit time of it. -/
theorem hearLevels_wait {levels : List Bool} {e : Nat} (he : e < T) (length : levels.length = T - e) :
    hearLevels i T (.heldLow e) s levels =
      setCharacter s i (if levels.getLast? = some true then .absent else .heldLow 0) := by
  induction levels generalizing e with
  | nil =>
    rw [List.length_nil] at length
    omega
  | cons b levels ih =>
    rw [List.length_cons] at length
    by_cases last : e + 1 = T
    · obtain rfl : levels = [] := List.eq_nil_of_length_eq_zero (by omega)
      have sampled : CharacterAssembly.hear T (.heldLow e) b = (if b then .absent else .heldLow 0, none) := by
        rw [CharacterAssembly.hear, if_pos last]
      rw [hearLevels_cons sampled]
      cases b <;> rfl
    · have older : CharacterAssembly.hear T (.heldLow e) b = (.heldLow (e + 1), none) := by
        rw [CharacterAssembly.hear, if_neg last]
      obtain ⟨b', more, rest⟩ := List.exists_cons_of_ne_nil (show levels ≠ [] by
        rintro rfl
        rw [List.length_nil] at length
        omega)
      rw [hearLevels_cons older, ih (by omega) (by omega), rest, List.getLast?_cons_cons]

end HeldLow

/-! ### A line at rest (R141) -/

section Rest
variable {s : State} {i : StationId} {T : Nat} {levels : List Bool}

theorem hearLevels_rest (high : ∀ b ∈ levels, b = true) (rest : (s.station i).link.character = .absent) :
    hearLevels i T .absent s levels = s := by
  induction levels with
  | nil => exact setCharacter_self rest
  | cons b levels ih =>
    have one : b = true := high b (List.mem_cons_self ..)
    subst one
    rw [hearLevels_cons (hear_absent_true T)]
    exact ih fun b hb => high b (List.mem_cons_of_mem _ hb)

/-- A start bit of 1 abandons the character. -/
theorem hearLevels_abandoned (hT : 2 ≤ T) (edge : levels[0]? = some false) (start : levels[T / 2]? = some true)
    (length : levels.length = T / 2 + 1) (rest : (s.station i).link.character = .absent) :
    hearLevels i T .absent s levels = s := by
  rcases List.eq_nil_or_concat levels with rfl | ⟨before, x, rfl⟩
  · cases edge
  rw [List.concat_eq_append] at *
  have half : before.length = T / 2 := by simpa using length
  have last : x = true := by
    rw [← half, List.getElem?_concat_length] at start
    exact Option.some.inj start
  subst last
  rw [List.getElem?_append_left (by omega)] at edge
  have none : before[T / 2]? = none := List.getElem?_eq_none_iff.2 (by omega)
  obtain ⟨bits, at_middles, heard⟩ := hear_prefix (s := s) (i := i) hT before edge (by rw [none]; exact nofun) (by omega)
  have empty : bits = [] := by
    refine List.eq_nil_of_length_eq_zero (Nat.eq_zero_of_not_pos fun pos => ?_)
    have := (sampled_iff at_middles 0).1 pos
    omega
  have sampled : CharacterAssembly.hear T (.assembling (before.length - 1) []) true = (.absent, Option.none) := by
    rw [hear_sample (by rw [List.length_nil]; omega)]
    rfl
  rw [heard, empty, hearLevels_cons sampled]
  exact setCharacter_self rest

end Rest

end Sys2Proof.Machine
end

section
/-! Whole characters (O37). -/

namespace Sys2Proof.Machine

section Whole
variable {s : State} {i : StationId} {T : Nat} {levels : List Bool} {d : Byte} {mark stop : Bool}

/-- The receiver's character assembly after a stop bit. -/
def afterStop (stop : Bool) : CharacterAssembly := if stop then .absent else .heldLow 0

theorem getD_of_some {bits : List Bool} {n : Nat} {b : Bool} (h : bits[n]? = some b) : bits.getD n true = b := by
  rw [List.getD_eq_getElem?_getD, h, Option.getD_some]

/-- A whole character heard from a resting line on. -/
theorem hearLevels_character (hT : 2 ≤ T) (carries : CarriesCharacter T levels d mark stop) :
    hearLevels i T .absent s levels =
      setCharacter
        (if stop then takeCharacter (setCharacter s i (afterStop stop)) i d mark
          else framingError (setCharacter s i (afterStop stop)) i d mark) i (afterStop stop) := by
  obtain ⟨whole, edge, start, data, marked, stopped⟩ := carries
  obtain ⟨bits, -, at_middles, heard⟩ := hear_character (s := s) (i := i) hT whole edge start
  have byte : dataByte bits = d := dataByte_eq fun j hj => (at_middles (j + 1)).trans (data j hj)
  have markBit : bits.getD 9 true = mark := getD_of_some ((at_middles 9).trans marked)
  have stopBit : bits.getD 10 true = stop := getD_of_some ((at_middles 10).trans stopped)
  have all := heard []
  rw [List.append_nil, stopBit, endCharacter, byte, markBit, stopBit] at all
  exact all

theorem hearLevels_carried (hT : 2 ≤ T) (rest : (s.station i).link.character = .absent)
    (carries : CarriesCharacter T levels d mark true) : hearLevels i T .absent s levels = takeCharacter s i d mark := by
  have resting : setCharacter s i (afterStop true) = s := setCharacter_self rest
  rw [hearLevels_character hT carries, resting, if_pos rfl]
  exact setCharacter_self ((sameHearing_takeCharacter s i d mark).2.trans rest)

end Whole

section Rows
variable {s : State} {i : StationId} {T : Nat} {c : Instr} {levels : List Bool} {d : Byte} {mark : Bool}

theorem exec_line_at (listens : ListensAt s i T) (line : GivesLine c i levels) :
    exec c s = .next (hearLevels i T .absent s levels) := by
  obtain ⟨hears, time, -, -, rest⟩ := listens
  rw [exec_line_heard (lineIgnored_of_listens hears) time line, rest]

theorem exec_character_carried (listens : ListensAt s i T) (line : GivesLine c i levels)
    (carries : CarriesCharacter T levels d mark true) : exec c s = .next (takeCharacter s i d mark) := by
  obtain ⟨-, -, low, -, rest⟩ := id listens
  rw [exec_line_at listens line, hearLevels_carried (by omega) rest carries]

/-- The receiver after a framing error. -/
def Link.misframed (l : Link) : Link :=
  { l with
    character := .heldLow 0
    assembly := none
    counters := { l.counters with framing := min 65535 (l.counters.framing + 1) } }

theorem setCharacter_framingError (s : State) (i : StationId) (d : Byte) (mark : Bool) (c : CharacterAssembly) :
    setCharacter (framingError s i d mark) i c =
      report
        (setCharacter ((setAssembly s i none).updCounters i fun k =>
          { k with framing := saturate 65535 (k.framing + 1) }) i c)
        .linkFraming (some i) none none (BitVec.ofNat 32 (d.toNat + (if mark then 256 else 0))) := rfl

/-- A framing error (R141): the wait begins, the frame in assembly is gone, the error counted. -/
theorem framingError_eq (s : State) (i : StationId) (d : Byte) (mark : Bool) :
    setCharacter (framingError (setCharacter s i (.heldLow 0)) i d mark) i (.heldLow 0) =
      report (s.updLink i Link.misframed) .linkFraming (some i) none none
        (BitVec.ofNat 32 (d.toNat + (if mark then 256 else 0))) := by
  rw [setCharacter_framingError]
  congr 1
  simp only [setCharacter, setAssembly, updLink_eq, updCounters_eq, updStation_updStation]
  rfl

/-! ### Characters by their mark bit (R142, R144, R145) -/

theorem takeCharacter_sync (s : State) (i : StationId) : takeCharacter s i 0x55 true = s := rfl

theorem takeCharacter_start (other : d ≠ 0x55) (s : State) (i : StationId) :
    takeCharacter s i d true = beginAssembly (dropIncomplete s i) i d := by
  rw [takeCharacter, if_pos rfl, if_neg other]

theorem takeCharacter_data (s : State) (i : StationId) (d : Byte) : takeCharacter s i d false = takeData s i d := rfl

theorem dropIncomplete_of_none (h : (s.station i).link.assembly = none) : dropIncomplete s i = s := by
  rw [dropIncomplete, h]

theorem dropIncomplete_of_some {a : FrameAssembly} (h : (s.station i).link.assembly = some a) :
    dropIncomplete s i = afterIncomplete s i a := by
  rw [dropIncomplete, h]
  exact protocolFault_eq _ i 3 _ _

theorem station_afterProtocolFault (s : State) (i : StationId) (detail : Nat) :
    (afterProtocolFault s i detail).station i =
      { s.station i with
        link := { (s.station i).link with
          counters := { (s.station i).link.counters with
            protocol := min 65535 ((s.station i).link.counters.protocol + 1) } } } :=
  station_updStation_self s i fun x =>
    { x with
      link := { x.link with
        counters := { x.link.counters with protocol := min 65535 (x.link.counters.protocol + 1) } } }

theorem station_afterIncomplete (s : State) (i : StationId) (a : FrameAssembly) :
    (afterIncomplete s i a).station i =
      { s.station i with
        link := { (s.station i).link with
          assembly := none
          counters := { (s.station i).link.counters with
            protocol := min 65535 ((s.station i).link.counters.protocol + 1) } } } := by
  rw [afterIncomplete, station_afterProtocolFault, updLink_eq, station_updStation_self]

theorem assembly_afterIncomplete (s : State) (i : StationId) (a : FrameAssembly) :
    ((afterIncomplete s i a).station i).link.assembly = none := by
  rw [station_afterIncomplete]

theorem listensAt_afterIncomplete {a : FrameAssembly} (h : ListensAt s i T) : ListensAt (afterIncomplete s i a) i T := by
  unfold ListensAt Listens at h ⊢
  rw [station_afterIncomplete]
  exact h

theorem frameKindOf_of_kind {k : FrameKind} (h : d.toNat / 16 = (match k with | .hello => 1 | .play => 2 | .hush => 3)) :
    frameKindOf d = some k := by
  cases k <;> simp only [frameKindOf, h]

theorem frameKindOf_of_other (h : d.toNat / 16 = 0 ∨ 4 ≤ d.toNat / 16) : frameKindOf d = none := by
  unfold frameKindOf
  split
  · omega
  · omega
  · omega
  · rfl

theorem frameLength_eq (k : FrameKind) : k.length = (match k with | .hello => 5 | .play => 10 | .hush => 2) := by
  cases k <;> rfl

theorem beginAssembly_of_some {k : FrameKind} (h : frameKindOf d = some k) (s : State) (i : StationId) :
    beginAssembly s i d = setAssembly s i (some ⟨k, d.toNat % 16, k.length, [d]⟩) := by
  rw [beginAssembly, h]

theorem beginAssembly_of_none (h : frameKindOf d = none) (s : State) (i : StationId) :
    beginAssembly s i d = afterProtocolFault s i (d.toNat + 4096) := by
  have detail : d.toNat + 0 * 256 + 1 * 4096 = d.toNat + 4096 := by omega
  rw [beginAssembly, h, ← detail]
  exact protocolFault_eq s i 1 d 0

theorem takeData_of_none (h : (s.station i).link.assembly = none) (d : Byte) :
    takeData s i d = afterProtocolFault s i (d.toNat + 2 * 4096) := by
  have detail : d.toNat + 0 * 256 + 2 * 4096 = d.toNat + 2 * 4096 := by omega
  rw [takeData, h, ← detail]
  exact protocolFault_eq s i 2 d 0

theorem takeData_of_more {a : FrameAssembly} (h : (s.station i).link.assembly = some a) (d : Byte)
    (more : a.chars.length + 1 ≠ a.expected) :
    takeData s i d = setAssembly s i (some { a with chars := a.chars ++ [d] }) := by
  rw [takeData, h]
  exact if_neg (by rw [List.length_append]; exact more)

theorem takeData_of_last {a : FrameAssembly} (h : (s.station i).link.assembly = some a) (d : Byte)
    (last : a.chars.length + 1 = a.expected) :
    takeData s i d = completeFrame (setAssembly s i none) i { a with chars := a.chars ++ [d] } := by
  rw [takeData, h]
  exact if_pos (by rw [List.length_append]; exact last)

end Rows

/-- Settles O37. -/
theorem charactersAreFramed : Obligations.CharactersAreFramed := by
  unfold Obligations.CharactersAreFramed
  refine ⟨fun s i c levels line deaf => exec_line_deaf deaf line,
    fun s t i c1 c2 c before after first second both next => exec_line_append first second both next,
    fun s i T e hears time held he => ⟨fun c levels line low => ?low, fun c levels line length => ?wait⟩,
    fun s i T c levels listens line => ?resting⟩
  case low =>
    obtain ⟨e', within, heard⟩ := hearLevels_low (s := s) (i := i) low he
    refine ⟨e', within, ?_⟩
    rw [exec_line_heard (lineIgnored_of_listens hears) time line, held, heard]
    rfl
  case wait =>
    rw [exec_line_heard (lineIgnored_of_listens hears) time line, held, hearLevels_wait he length]
    rfl
  case resting =>
    obtain ⟨-, -, slow, -, rest⟩ := id listens
    have heard := exec_line_at listens line
    refine ⟨fun high => ?high, fun edge start length => ?abandoned, fun edge start length => ?inAssembly,
      fun d mark carries => ?misframed, fun carries => ?sync, fun d other carries => ⟨fun a assembly => ?incomplete,
        fun none => ⟨fun k kind => ?begins, fun kind => ?noKind⟩⟩,
      fun d carries => ⟨fun none => ?stray, fun a assembly more => ?joins⟩⟩
    case high => rw [heard, hearLevels_rest high rest]
    case abandoned => rw [heard, hearLevels_abandoned (by omega) edge start length rest]
    case inAssembly =>
      obtain ⟨bits, at_middles, prefixed⟩ := hear_prefix (s := s) (i := i) (by omega) levels edge start length
      have all := prefixed []
      rw [List.append_nil] at all
      refine ⟨bits, at_middles, ?_⟩
      rw [heard, all]
      rfl
    case misframed =>
      rw [heard, hearLevels_character (by omega) carries]
      exact congrArg _ (framingError_eq s i d mark)
    case sync => rw [exec_character_carried listens line carries, takeCharacter_sync]
    case incomplete =>
      rw [exec_character_carried listens line carries, takeCharacter_start other, dropIncomplete_of_some assembly,
        exec_character_carried (listensAt_afterIncomplete listens) line carries, takeCharacter_start other,
        dropIncomplete_of_none (assembly_afterIncomplete s i a)]
    case begins =>
      rw [exec_character_carried listens line carries, takeCharacter_start other, dropIncomplete_of_none none,
        beginAssembly_of_some (frameKindOf_of_kind kind), frameLength_eq]
      rfl
    case noKind =>
      rw [exec_character_carried listens line carries, takeCharacter_start other, dropIncomplete_of_none none,
        beginAssembly_of_none (frameKindOf_of_other kind)]
    case stray =>
      rw [exec_character_carried listens line carries, takeCharacter_data, takeData_of_none none]
    case joins =>
      rw [exec_character_carried listens line carries, takeCharacter_data, takeData_of_more assembly d more]
      rfl

end Sys2Proof.Machine
end

section
/-! Complete frames (O38). -/

namespace Sys2Proof.Machine

/-! ### The check sum and the content (R146, R147) -/

section Content

theorem toNat_foldl_add (chars : List Byte) (x : Byte) :
    (chars.foldl (· + ·) x).toNat = (x.toNat + (chars.map BitVec.toNat).sum) % 256 := by
  induction chars generalizing x with
  | nil =>
    rw [List.foldl_nil, List.map_nil, List.sum_nil, Nat.add_zero, Nat.mod_eq_of_lt x.isLt]
  | cons b chars ih =>
    rw [List.foldl_cons, ih, List.map_cons, List.sum_cons, BitVec.toNat_add, Nat.mod_add_mod, Nat.add_assoc]

theorem toNat_checkSum (chars : List Byte) : (checkSum chars).toNat = (chars.map BitVec.toNat).sum % 256 := by
  have zero : (0 : Byte).toNat = 0 := rfl
  rw [checkSum, toNat_foldl_add, zero, Nat.zero_add]

theorem checkSum_eq_zero_iff (chars : List Byte) : checkSum chars = 0 ↔ (chars.map BitVec.toNat).sum % 256 = 0 := by
  rw [← toNat_checkSum, ← BitVec.toNat_inj]
  rfl

theorem toNat_append_byte {n : Nat} (x : BitVec n) (y : Byte) : (x ++ y).toNat = x.toNat * 256 + y.toNat := by
  rw [BitVec.toNat_append, ← Nat.shiftLeft_add_eq_or_of_lt y.isLt, Nat.shiftLeft_eq]

theorem word_of_chars (a b c d : Byte) :
    BitVec.ofNat 32 (a.toNat + b.toNat * 256 + c.toNat * 65536 + d.toNat * 16777216) = d ++ c ++ b ++ a := by
  refine BitVec.eq_of_toNat_eq ?_
  have low := a.isLt
  have second := b.isLt
  have third := c.isLt
  have high := d.isLt
  rw [BitVec.toNat_ofNat, toNat_append_byte, toNat_append_byte, toNat_append_byte]
  omega

theorem half_of_chars (a b : Byte) : a.toNat + b.toNat * 256 = (b ++ a).toNat := by
  rw [toNat_append_byte]
  omega

theorem contentOf_eq (k : FrameKind) (chars : List Byte) :
    contentOf k chars =
      (match k with
      | .hello => .hello (chars.getD 1 0).toNat (chars.getD 2 0).toNat (chars.getD 3 0).toNat
      | .play =>
        .play (chars.getD 4 0 ++ chars.getD 3 0 ++ chars.getD 2 0 ++ chars.getD 1 0)
          (chars.getD 6 0 ++ chars.getD 5 0).toNat (chars.getD 8 0 ++ chars.getD 7 0).toNat
      | .hush => .hush) := by
  cases k with
  | hello => rfl
  | play =>
    change FrameContent.play _ _ _ = _
    simp only [charAt, word_of_chars]
    simp only [half_of_chars]
  | hush => rfl

end Content

/-! ### The sequence window (R148) -/

section Window
variable {l : Link} {seq missed last : Nat}

theorem windowMissed_of_stale (shut : l.windowOpen = false) (had : l.lastSeq = some last)
    (stale : (seq + 16 - last) % 16 = 0 ∨ 9 ≤ (seq + 16 - last) % 16) : windowMissed l seq = none := by
  have outside : ¬ (1 ≤ (seq + 16 - last) % 16 ∧ (seq + 16 - last) % 16 ≤ 8) := by omega
  simp only [windowMissed, shut, had, Bool.false_eq_true, if_false, if_neg outside]

theorem windowMissed_of_passes (h : WindowPasses l seq missed) : windowMissed l seq = some missed := by
  rcases h with ⟨opened, rfl⟩ | ⟨shut, last, had, within, count⟩
  · rw [windowMissed, if_pos opened]
  · simp only [windowMissed, shut, had, Bool.false_eq_true, if_false, if_pos within]
    congr 1
    omega

end Window

/-! ### A complete frame (R147 to R150) -/

section Complete
variable {s : State} {i : StationId} {a : FrameAssembly} {missed : Nat}

theorem link_setAssembly (s : State) (i : StationId) (x : Option FrameAssembly) :
    ((setAssembly s i x).station i).link = { (s.station i).link with assembly := x } := by
  rw [setAssembly, updLink_eq, station_updStation_self]

theorem completeFrame_of_bad (bad : checkSum a.chars ≠ 0) :
    completeFrame (setAssembly s i none) i a =
      report
        (s.updLink i fun l =>
          { l with
            assembly := none
            counters := { l.counters with check := min 65535 (l.counters.check + 1) } })
        .linkCheck (some i) none none
        (BitVec.ofNat 32 ((a.kind.startChar a.seq).toNat + (checkSum a.chars).toNat * 256)) := by
  rw [completeFrame, if_neg bad]
  congr 1
  simp only [setAssembly, updLink_eq, updCounters_eq, updStation_updStation]
  rfl

theorem completeFrame_of_good (good : checkSum a.chars = 0) (s : State) (i : StationId) :
    completeFrame s i a = windowFrame s i a.kind ⟨a.seq, contentOf a.kind a.chars⟩ := if_pos good

theorem windowFrame_of_stale {k : FrameKind} {f : Frame} (stale : windowMissed (s.station i).link f.seq = none) :
    windowFrame (setAssembly s i none) i k f =
      s.updLink i fun l =>
        { l with
          assembly := none
          counters := { l.counters with stale := min 65535 (l.counters.stale + 1) } } := by
  have same : windowMissed ((setAssembly s i none).station i).link f.seq = none := by
    rw [link_setAssembly]
    exact stale
  rw [windowFrame, same]
  simp only [setAssembly, updLink_eq, updCounters_eq, updStation_updStation]
  rfl

theorem windowFrame_of_full {k : FrameKind} {f g : Frame} (passes : windowMissed (s.station i).link f.seq = some missed)
    (full : (s.station i).link.buffer = some g) :
    windowFrame (setAssembly s i none) i k f =
      report (setAssembly s i none) .linkOverrun (some i) none none (BitVec.ofNat 32 (k.startChar f.seq).toNat) := by
  have same : windowMissed ((setAssembly s i none).station i).link f.seq = some missed := by
    rw [link_setAssembly]
    exact passes
  have buffer : ((setAssembly s i none).station i).link.buffer = some g := by
    rw [link_setAssembly]
    exact full
  simp only [windowFrame, same, buffer]

theorem windowFrame_of_empty {k : FrameKind} {f : Frame} (passes : windowMissed (s.station i).link f.seq = some missed)
    (empty : (s.station i).link.buffer = none) :
    windowFrame (setAssembly s i none) i k f = acceptFrame (setAssembly s i none) i f missed := by
  have same : windowMissed ((setAssembly s i none).station i).link f.seq = some missed := by
    rw [link_setAssembly]
    exact passes
  have buffer : ((setAssembly s i none).station i).link.buffer = none := by
    rw [link_setAssembly]
    exact empty
  simp only [windowFrame, same, buffer]

theorem acceptFrame_eq {f : Frame} {content : FrameContent} (holds : f.content = content) (s : State) (i : StationId)
    (missed : Nat) :
    acceptFrame (setAssembly s i none) i f missed =
      s.updStation i fun x =>
        { x with
          link :=
            { x.link with
              assembly := none
              buffer := some { seq := f.seq, content := content }
              lastSeq := some f.seq
              windowOpen := false
              counters := { x.link.counters with missed := min 65535 (x.link.counters.missed + missed) }
              silence := if x.state = .calibrating ∨ x.state = .live then .running 1152 else x.link.silence } } := by
  subst holds
  have state : ((setAssembly s i none).station i).state = (s.station i).state := by
    rw [setAssembly, updLink_eq, station_updStation_self]
  unfold acceptFrame
  rw [state]
  simp only [startSilence, setAssembly, updLink_eq, updStation_updStation]
  split
  · next runs => exact updStation_congr (by rw [if_pos runs]; rfl)
  · next stands => exact updStation_congr (by rw [if_neg stands]; rfl)

end Complete

/-- Settles O38. -/
theorem completeFramesAreCheckedAndAccepted : Obligations.CompleteFramesAreCheckedAndAccepted := by
  unfold Obligations.CompleteFramesAreCheckedAndAccepted
  rintro s i T c levels d a _ _ listens line carries assembly last rfl rfl
  have means := exec_character_carried listens line carries
  rw [takeCharacter_data, takeData_of_last assembly d last] at means
  have check (sum : ((a.chars ++ [d]).map BitVec.toNat).sum % 256 = 0) : checkSum (a.chars ++ [d]) = 0 :=
    (checkSum_eq_zero_iff _).2 sum
  refine ⟨fun bad => ?bad, fun last sum shut had stale => ?stale, fun missed f sum passes full => ?overrun,
    fun missed sum passes empty => ?accepted⟩
  case bad =>
    rw [means, completeFrame_of_bad fun good => bad ((checkSum_eq_zero_iff _).1 good), toNat_checkSum]
    rfl
  case stale =>
    rw [means, completeFrame_of_good (check sum), windowFrame_of_stale (windowMissed_of_stale shut had stale)]
  case overrun =>
    rw [means, completeFrame_of_good (check sum), windowFrame_of_full (windowMissed_of_passes passes) full]
    rfl
  case accepted =>
    rw [means, completeFrame_of_good (check sum), windowFrame_of_empty (windowMissed_of_passes passes) empty]
    exact congrArg Host.Outcome.next (acceptFrame_eq (contentOf_eq a.kind (a.chars ++ [d])) s i missed)

end Sys2Proof.Machine
end

section
/-! SYNC (O39). -/

namespace Sys2Proof.Machine

/-! ### The detector (R142) -/

section Detector
variable {intervals : List Nat} {stop : Bool} {T : Nat}

/-- The nearest integer to a ninth of the span. -/
theorem measuredBitTime_iff : measuredBitTime intervals = T ↔
    2 * intervals.sum < 18 * T + 9 ∧ 18 * T < 2 * intervals.sum + 9 := by
  rw [measuredBitTime]
  omega

/-- What the detector asks of a measured bit time. -/
def SyncFits (intervals : List Nat) (stop : Bool) (T : Nat) : Prop :=
  2 * intervals.sum < 18 * T + 9 ∧ 18 * T < 2 * intervals.sum + 9 ∧ 8 ≤ T ∧ T ≤ 99 ∧ intervals.length = 9
    ∧ stop = true ∧ ∀ n ∈ intervals, 3 * T ≤ 4 * n ∧ 4 * n ≤ 5 * T

theorem syncAccepted_iff : syncAccepted intervals stop = true ↔
    intervals.length = 9 ∧ (8 ≤ measuredBitTime intervals ∧ measuredBitTime intervals ≤ 99) ∧ stop = true
      ∧ ∀ n ∈ intervals, 3 * measuredBitTime intervals ≤ 4 * n ∧ 4 * n ≤ 5 * measuredBitTime intervals := by
  simp only [syncAccepted, Bool.and_eq_true, beq_iff_eq, decide_eq_true_iff, List.all_eq_true, and_assoc]

theorem SyncFits.measured (h : SyncFits intervals stop T) : measuredBitTime intervals = T :=
  measuredBitTime_iff.2 ⟨h.1, h.2.1⟩

theorem SyncFits.accepted (h : SyncFits intervals stop T) : syncAccepted intervals stop = true := by
  have time := h.measured
  obtain ⟨-, -, low, high, nine, stopped, within⟩ := h
  rw [syncAccepted_iff, time]
  exact ⟨nine, ⟨low, high⟩, stopped, within⟩

theorem fits_of_accepted (h : syncAccepted intervals stop = true) :
    SyncFits intervals stop (measuredBitTime intervals) := by
  obtain ⟨nine, ⟨low, high⟩, stopped, within⟩ := syncAccepted_iff.1 h
  obtain ⟨below, above⟩ := measuredBitTime_iff.1 (rfl : measuredBitTime intervals = measuredBitTime intervals)
  exact ⟨below, above, low, high, nine, stopped, within⟩

end Detector

/-! ### The row (R143) -/

section Row
variable {s : State} {i : StationId} {intervals : List Nat} {stop : Bool} {T : Nat}

theorem exec_sync_ignored (h : lineIgnored s i = true ∨ syncAccepted intervals stop = false) :
    exec (.sync i intervals stop) s = .next s := by
  refine if_pos ?_
  rcases h with deaf | refused
  · rw [deaf, Bool.true_or]
  · rw [refused, Bool.not_false, Bool.or_true]

theorem exec_sync_accepted (hears : lineIgnored s i = false) (fits : SyncFits intervals stop T) :
    exec (.sync i intervals stop) s = .next (handSync ((dropIncomplete s i).updLink i fun l => l.synced T) i) := by
  rw [← fits.measured]
  refine if_neg ?_
  rw [hears, fits.accepted]
  decide

theorem lineIgnored_afterIncomplete (s : State) (i : StationId) (a : FrameAssembly) :
    lineIgnored (afterIncomplete s i a) i = lineIgnored s i := by
  have state : ((afterIncomplete s i a).station i).state = (s.station i).state := by rw [station_afterIncomplete]
  rw [lineIgnored, lineIgnored, state]
  rfl

theorem exec_syncTaken_of_handed (h : (s.station i).syncHanded = true) :
    exec (.syncTaken i) s = .next (takeSync s i) := if_pos h

theorem exec_syncTaken_of_none (h : (s.station i).syncHanded = false) : exec (.syncTaken i) s = .next s :=
  if_neg (by rw [h]; exact Bool.false_ne_true)

/-- A station that has learned a bit time, the SYNC handed over (R143 steps 2 to 6). -/
def Station.synchronized (T : Nat) (x : Station) : Station :=
  { x with
    syncHanded := true
    link :=
      { x.link with bitTime := some T, character := .absent, buffer := none, windowOpen := true, waiting := none } }

theorem handSync_of_free (free : (s.station i).stall = none) (T : Nat) :
    handSync (s.updLink i fun l => l.synced T) i = s.updStation i (Station.synchronized T) := by
  have unstalled : ((s.updLink i fun l => l.synced T).station i).stall = none := by
    rw [updLink_eq, station_updStation_self]
    exact free
  rw [handSync, unstalled, updLink_eq, updStation_updStation]
  rfl

theorem handSync_of_stalled (stalled : (s.station i).stall ≠ none) (T : Nat) :
    handSync (s.updLink i fun l => l.synced T) i = takeSync (s.updStation i (Station.synchronized T)) i := by
  have waits : ((s.updLink i fun l => l.synced T).station i).stall.isSome = true := by
    rw [updLink_eq, station_updStation_self]
    exact Option.isSome_iff_ne_none.2 stalled
  rw [handSync, if_pos waits, takeSync, takeSync, updLink_eq, updStation_updStation, updStation_updStation]
  rfl

/-! ### Taking it (R126, R129, R150) -/

theorem station_takeSync (rest : (s.station i).restOk) : (takeSync s i).station i =
    { s.station i with
      state := .synced
      breath := (s.station i).breath.atRest
      fingering := (s.station i).fingering.atRest
      calib := Calibration.fresh
      stall := none
      syncHanded := false
      link := { (s.station i).link with silence := .stopped } } := by
  have resting : ((s.updStation i fun x => { x with syncHanded := false }).station i).restOk := by
    rw [station_updStation_self]
    exact rest
  rw [takeSync, station_becomeSynced resting, station_updStation_self]

theorem noteEnds_takeSync (rest : (s.station i).restOk) : NoteEnds s (takeSync s i) i := by
  refine NoteEnds.of_updStation (f := fun x => { x with syncHanded := false }) rfl (noteEnds_becomeSynced ?_)
  rw [station_updStation_self]
  exact rest

theorem samePool_takeSync (other : (s.station i).state ≠ .live) : SamePool s (takeSync s i) := by
  have still : ((s.updStation i fun x => { x with syncHanded := false }).station i).state ≠ .live := by
    rw [station_updStation_self]
    exact other
  rw [takeSync, becomeSynced_of_notLive still]
  exact (samePool_updStation s i _).trans (samePool_updStation _ i _)

end Row

/-- Settles O39. -/
theorem syncIsLearnedAndTaken : Obligations.SyncIsLearnedAndTaken := by
  unfold Obligations.SyncIsLearnedAndTaken
  refine ⟨fun s i intervals stop => ⟨fun deaf => exec_sync_ignored (.inl ?deaf), fun clear reset state =>
      ⟨fun none => exec_sync_ignored (.inr ?refused), ?accepted⟩⟩,
    fun s i none => exec_syncTaken_of_none none, fun s i handed enabled rest => ?taken⟩
  case deaf =>
    rw [lineIgnored, Bool.or_eq_true, Bool.or_eq_true, beq_iff_eq, or_assoc]
    exact deaf
  case refused =>
    rw [← Bool.not_eq_true]
    exact fun accepted => none ⟨_, fits_of_accepted accepted⟩
  case accepted =>
    intro T below above low high nine stopped within
    have fits : SyncFits intervals stop T := ⟨below, above, low, high, nine, stopped, within⟩
    have hears : lineIgnored s i = false := by
      rw [lineIgnored, clear, reset, beq_false_of_ne state]
      rfl
    have means := exec_sync_accepted hears fits
    refine ⟨fun a assembly => ?incomplete, fun none u hu => ⟨fun free => ?free, fun stalled => ?stalled⟩⟩
    case incomplete =>
      rw [means, exec_sync_accepted ((lineIgnored_afterIncomplete s i a).trans hears) fits,
        dropIncomplete_of_some assembly, dropIncomplete_of_none (assembly_afterIncomplete s i a)]
    case free =>
      rw [means, dropIncomplete_of_none none, handSync_of_free free, hu]
      rfl
    case stalled =>
      have learned : u = s.updStation i (Station.synchronized T) := hu
      have handed : (u.station i).syncHanded = true := by
        rw [learned, station_updStation_self]
        rfl
      rw [means, dropIncomplete_of_none none, handSync_of_stalled stalled, exec_syncTaken_of_handed handed, learned]
  case taken =>
    exact ⟨_, exec_syncTaken_of_handed handed, engineFrame_takeSync s i, faults_becomeSynced _ i, noteEnds_takeSync rest,
      samePool_takeSync, station_takeSync rest⟩

end Sys2Proof.Machine
end

section
/-! The ends of notes and the layer conditions (O34, O35). -/

namespace Sys2Proof.Machine

/-! ### NOTE_OFF slot by slot (R99) -/

section Ends
variable {s : State} {i : StationId} {tag : Nat}

theorem toRelease_of_sounding {x : Voice} (h : x.state = .sounding) (t : Word) : x.toRelease t = x.releasedAt t :=
  if_pos h

theorem toRelease_of_other {x : Voice} (h : x.state ≠ .sounding) (t : Word) : x.toRelease t = x := if_neg h

theorem toRelease_toRelease (x : Voice) (t : Word) : (x.toRelease t).toRelease t = x.toRelease t := by
  by_cases h : x.state = .sounding
  · rw [toRelease_of_sounding h, toRelease_of_other]
    exact nofun
  · rw [toRelease_of_other h, toRelease_of_other h]

/-- What one slot's end leaves: the timebase, the free list, the faults. -/
theorem endSlot_kept (i : StationId) (tag : Nat) (s : State) (x : Slot) :
    (endSlot i tag s x).timebase = s.timebase ∧ (endSlot i tag s x).freeList = s.freeList
      ∧ (endSlot i tag s x).faults = s.faults := by
  unfold endSlot
  cases x.state <;> exact ⟨rfl, rfl, rfl⟩

theorem voice_endSlot_of_voiced {x : Slot} {v : VoiceId} (h : x.state = .voiced v) :
    (endSlot i tag s x).voice v = (s.voice v).toRelease s.timebase := by
  rw [endSlot, h]
  exact voice_updVoice_self s v _

theorem voice_endSlot_of_other {x : Slot} {v : VoiceId} (h : x.state ≠ .voiced v) :
    (endSlot i tag s x).voice v = s.voice v := by
  rw [endSlot]
  cases state : x.state with
  | voiced w =>
    have other : v ≠ w := fun same => h (by rw [state, same])
    exact voice_updVoice_ne s w v _ other
  | claiming w => rfl
  | starved => rfl
  | dormant => rfl

theorem mem_claims_dropClaim {layer : LayerId} {c : Claim} : c ∈ (dropClaim s i tag layer).claims ↔
    c ∈ s.claims ∧ ¬ (c.station = i ∧ c.tag = tag ∧ c.layer = layer) := by
  rw [dropClaim, List.mem_filter, Bool.not_eq_true', ← Bool.not_eq_true, Bool.and_eq_true, Bool.and_eq_true,
    beq_iff_eq, beq_iff_eq, beq_iff_eq, and_assoc]

theorem mem_starve_dropStarved {layer : LayerId} {e : Starved} : e ∈ (dropStarved s i tag layer).starve ↔
    e ∈ s.starve ∧ ¬ (e.station = i ∧ e.tag = tag ∧ e.layer = layer) := by
  rw [dropStarved, List.mem_filter, bne_iff_ne]
  cases e
  simp

theorem mem_claims_endSlot {x : Slot} {c : Claim} : c ∈ (endSlot i tag s x).claims ↔
    c ∈ s.claims ∧ ¬ (c.station = i ∧ c.tag = tag ∧ x.layer = c.layer ∧ ∃ v, x.state = .claiming v) := by
  rw [endSlot]
  cases state : x.state with
  | voiced v => simp [releaseVoice]
  | claiming v =>
    refine mem_claims_dropClaim.trans ?_
    rw [eq_comm (a := c.layer)]
    simp
  | starved => simp [dropStarved]
  | dormant => simp

theorem mem_starve_endSlot {x : Slot} {e : Starved} : e ∈ (endSlot i tag s x).starve ↔
    e ∈ s.starve ∧ ¬ (e.station = i ∧ e.tag = tag ∧ x.layer = e.layer ∧ x.state = .starved) := by
  rw [endSlot]
  cases state : x.state with
  | voiced v => simp [releaseVoice]
  | claiming v => simp [dropClaim]
  | starved =>
    refine mem_starve_dropStarved.trans ?_
    rw [eq_comm (a := e.layer)]
    simp
  | dormant => simp

theorem sublist_endSlot (i : StationId) (tag : Nat) (s : State) (x : Slot) :
    (endSlot i tag s x).claims.Sublist s.claims ∧ (endSlot i tag s x).starve.Sublist s.starve := by
  rw [endSlot]
  cases x.state with
  | voiced v => exact ⟨.refl _, .refl _⟩
  | claiming v => exact ⟨List.filter_sublist, .refl _⟩
  | starved => exact ⟨.refl _, List.filter_sublist⟩
  | dormant => exact ⟨.refl _, .refl _⟩

theorem endSlots_kept (l : List Slot) (s : State) :
    (l.foldl (endSlot i tag) s).timebase = s.timebase ∧ (l.foldl (endSlot i tag) s).freeList = s.freeList
      ∧ (l.foldl (endSlot i tag) s).faults = s.faults := by
  induction l generalizing s with
  | nil => exact ⟨rfl, rfl, rfl⟩
  | cons x l ih =>
    obtain ⟨time, free, faults⟩ := endSlot_kept i tag s x
    obtain ⟨time', free', faults'⟩ := ih (endSlot i tag s x)
    exact ⟨time'.trans time, free'.trans free, faults'.trans faults⟩

theorem voice_endSlots_of_other {l : List Slot} {v : VoiceId} (h : ∀ x ∈ l, x.state ≠ .voiced v) (s : State) :
    (l.foldl (endSlot i tag) s).voice v = s.voice v := by
  induction l generalizing s with
  | nil => rfl
  | cons x l ih =>
    rw [List.foldl_cons, ih (fun y hy => h y (List.mem_cons_of_mem _ hy)),
      voice_endSlot_of_other (h x (List.mem_cons_self ..))]

/-- However many slots are VOICED with a voice, it is released once. -/
theorem voice_endSlots_of_voiced {l : List Slot} {v : VoiceId} (h : ∃ x ∈ l, x.state = .voiced v) (s : State) :
    (l.foldl (endSlot i tag) s).voice v = (s.voice v).toRelease s.timebase := by
  induction l generalizing s with
  | nil =>
    obtain ⟨x, none, -⟩ := h
    cases none
  | cons x l ih =>
    have time := (endSlot_kept i tag s x).1
    rw [List.foldl_cons]
    by_cases later : ∃ y ∈ l, y.state = .voiced v
    · rw [ih later, time]
      by_cases first : x.state = .voiced v
      · rw [voice_endSlot_of_voiced first, toRelease_toRelease]
      · rw [voice_endSlot_of_other first]
    · have first : x.state = .voiced v := by
        obtain ⟨y, hy, voiced⟩ := h
        rcases List.mem_cons.1 hy with rfl | tail
        · exact voiced
        · exact absurd ⟨y, tail, voiced⟩ later
      have none : ∀ y ∈ l, y.state ≠ .voiced v := fun y hy voiced => later ⟨y, hy, voiced⟩
      rw [voice_endSlots_of_other none, voice_endSlot_of_voiced first]

theorem mem_claims_endSlots (l : List Slot) (s : State) (c : Claim) : c ∈ (l.foldl (endSlot i tag) s).claims ↔
    c ∈ s.claims ∧ ¬ (c.station = i ∧ c.tag = tag ∧ ∃ x ∈ l, x.layer = c.layer ∧ ∃ v, x.state = .claiming v) := by
  induction l generalizing s with
  | nil => simp
  | cons x l ih =>
    rw [List.foldl_cons, ih, mem_claims_endSlot]
    simp only [exists_mem_cons, and_assoc, ← not_or, ← and_or_left]

theorem mem_starve_endSlots (l : List Slot) (s : State) (e : Starved) : e ∈ (l.foldl (endSlot i tag) s).starve ↔
    e ∈ s.starve ∧ ¬ (e.station = i ∧ e.tag = tag ∧ ∃ x ∈ l, x.layer = e.layer ∧ x.state = .starved) := by
  induction l generalizing s with
  | nil => simp
  | cons x l ih =>
    rw [List.foldl_cons, ih, mem_starve_endSlot]
    simp only [exists_mem_cons, and_assoc, ← not_or, ← and_or_left]

theorem sublist_endSlots (l : List Slot) (s : State) :
    (l.foldl (endSlot i tag) s).claims.Sublist s.claims ∧ (l.foldl (endSlot i tag) s).starve.Sublist s.starve := by
  induction l generalizing s with
  | nil => exact ⟨.refl _, .refl _⟩
  | cons x l ih =>
    obtain ⟨claims, starve⟩ := sublist_endSlot i tag s x
    obtain ⟨claims', starve'⟩ := ih (endSlot i tag s x)
    exact ⟨claims'.trans claims, starve'.trans starve⟩

theorem noteOff_of_none (h : s.note i = none) : noteOff s i = s := by rw [noteOff, h]

theorem noteOff_of_some {n : NoteRecord} (h : s.note i = some n) :
    noteOff s i = (n.slots.foldl (endSlot i n.tag) s).updFingering i fun g => { g with note := none } := by
  rw [noteOff, h]

end Ends

/-- Settles O34. -/
theorem noteOffLetsTheVoicesGo : Obligations.NoteOffLetsTheVoicesGo := by
  unfold Obligations.NoteOffLetsTheVoicesGo
  refine ⟨fun s i none => noteOff_of_none none, fun s i n sounding => ?_⟩
  refine ⟨engineFrame_noteOff s i, noteOff_station s i, ?_⟩
  obtain ⟨-, free, faults⟩ := endSlots_kept (i := i) (tag := n.tag) n.slots s
  obtain ⟨claims, starve⟩ := sublist_endSlots (i := i) (tag := n.tag) n.slots s
  rw [noteOff_of_some sounding]
  exact ⟨fun v voiced state => (voice_endSlots_of_voiced voiced s).trans (toRelease_of_sounding state _),
    fun v other => voice_endSlots_of_other other s, free, faults, ⟨claims, mem_claims_endSlots n.slots s⟩,
    starve, mem_starve_endSlots n.slots s⟩

/-! ### The layer conditions (R64, R79) -/

section Conditions
variable {s : State} {i : StationId} {tag : Nat} {layer : LayerId} {x : Slot}

theorem masked_nibble (m : BitVec 4) (a b c d : Bool) :
    ((m &&& BitVec.ofNat 4 (bitAt a 0 + bitAt b 1 + bitAt c 2 + bitAt d 3)) != 0) =
      ((m.getLsbD 0 && a) || (m.getLsbD 1 && b) || (m.getLsbD 2 && c) || (m.getLsbD 3 && d)) := by
  revert m a b c d
  decide

theorem maskedSet_iff (m : BitVec 4) (ind : Indicators) : ((m &&& ind.nibble) != 0) = true ↔ MaskedSet m ind := by
  rw [Indicators.nibble, masked_nibble]
  simp only [Bool.or_eq_true, Bool.and_eq_true, MaskedSet, or_assoc]

theorem conditionHolds_iff (t : Tone) (ind : Indicators) :
    conditionHolds t.mask t.sense ind = true ↔ ConditionTrue t ind := by
  unfold conditionHolds ConditionTrue
  by_cases empty : t.mask = 0
  · simp [empty]
  · have sensed : ((t.mask &&& ind.nibble) == 0) = true ↔ ¬ MaskedSet t.mask ind := by
      rw [← maskedSet_iff, bne, Bool.not_eq_true', Bool.not_eq_false]
    rw [if_neg empty]
    cases t.sense with
    | any => exact (maskedSet_iff t.mask ind).trans (by simp only [empty, false_or, true_and, reduceCtorEq, false_and, or_false])
    | noneOf => exact sensed.trans (by simp only [empty, false_or, true_and, reduceCtorEq, false_and])

theorem evalSlot_of_none (h : slotOf s i tag layer = none) : evalSlot i tag s layer = s := by
  rw [evalSlot, h]

theorem evalSlot_of_true (slot : slotOf s i tag layer = some x)
    (holds : ConditionTrue x.copy.tone (s.station i).breath.ind) :
    evalSlot i tag s layer = if x.state = .dormant then claimVoice s i tag layer else s := by
  have condition : conditionHolds x.copy.tone.mask x.copy.tone.sense (s.station i).breath.ind = true :=
    (conditionHolds_iff _ _).2 holds
  simp only [evalSlot, slot, condition, if_true]
  cases x.state <;> rfl

/-- A slot's voice, claim or starve entry handed back (R97, R98, R92). -/
def slotLeft (s : State) (i : StationId) (tag : Nat) (layer : LayerId) : SlotState → State
  | .dormant => s
  | .voiced v => releaseVoice s v
  | .claiming _ => dropClaim s i tag layer
  | .starved => dropStarved s i tag layer

theorem evalSlot_of_false (slot : slotOf s i tag layer = some x)
    (fails : ¬ ConditionTrue x.copy.tone (s.station i).breath.ind) :
    evalSlot i tag s layer =
      if x.state = .dormant then s else setSlot (slotLeft s i tag layer x.state) i tag layer .dormant := by
  have condition : conditionHolds x.copy.tone.mask x.copy.tone.sense (s.station i).breath.ind = false := by
    rw [← Bool.not_eq_true, conditionHolds_iff]
    exact fails
  simp only [evalSlot, slot, condition, Bool.false_eq_true, if_false]
  cases x.state <;> rfl

theorem slotOf_slotLeft (state : SlotState) : slotOf (slotLeft s i tag layer state) i tag layer = slotOf s i tag layer := by
  cases state <;> rfl

theorem slotLeft_kept (state : SlotState) : (slotLeft s i tag layer state).freeList = s.freeList
    ∧ (slotLeft s i tag layer state).faults = s.faults := by
  cases state <;> exact ⟨rfl, rfl⟩

end Conditions

/-- Settles O35: the condition, and then the slot's state. -/
theorem slotsFollowTheirConditions : Obligations.SlotsFollowTheirConditions := by
  unfold Obligations.SlotsFollowTheirConditions
  refine ⟨fun s i none => evalConditions_of_none s i none, fun s i n note => ?conditions,
    fun s i tag layer none => evalSlot_of_none none,
    fun s i tag layer x slot => ⟨fun holds => ⟨fun dormant => ?claims, fun other => ?keeps⟩, fun fails => ?fails⟩⟩
  case conditions =>
    rw [evalConditions, note]
    rfl
  case claims => rw [evalSlot_of_true slot holds, if_pos dormant]
  case keeps => rw [evalSlot_of_true slot holds, if_neg other]
  case fails =>
    have left := evalSlot_of_false slot fails
    refine ⟨fun dormant => by rw [left, if_pos dormant], fun other => ?_, fun v voiced => ?_, fun v claiming => ?_,
      fun starved => ?_⟩
    · have frame := allocatorFrame_evalSlot i tag s layer
      obtain ⟨free, faults⟩ := slotLeft_kept (s := s) (i := i) (tag := tag) (layer := layer) x.state
      rw [left, if_neg other] at frame ⊢
      refine ⟨frame, ?_, free, faults⟩
      rw [slotOf_setSlot, if_pos ⟨rfl, rfl, rfl⟩, slotOf_slotLeft, slot, Option.map_some]
    · rw [left, if_neg (by rw [voiced]; exact nofun), voiced]
      refine ⟨fun state => ?_, fun w other => ?_, rfl, rfl⟩
      · exact (voice_updVoice_self s v _).trans (toRelease_of_sounding state _)
      · exact voice_updVoice_ne s v w _ other
    · rw [left, if_neg (by rw [claiming]; exact nofun), claiming]
      refine ⟨rfl, ?_, rfl⟩
      refine List.filter_congr fun c _ => ?_
      simp [Bool.beq_eq_decide_eq, Bool.or_assoc]
    · rw [left, if_neg (by rw [starved]; exact nofun), starved]
      refine ⟨rfl, rfl, ?_⟩
      refine List.filter_congr fun e _ => ?_
      simp [bne, Bool.beq_eq_decide_eq]

end Sys2Proof.Machine
end

section
/-! The arbiter's tests and the steal order: claims (O32) and completions (O33). -/

namespace Sys2Proof.Machine

/-! ### The free-voice test (R84) -/

section FreeTest
variable (s : State) (i : StationId)

theorem sum_others (g : StationId → Nat) :
    ((allStations.filter (· ≠ i)).map g).sum = overStations fun t => if t = i then 0 else g t := by
  have all : allStations = [0, 1, 2, 3] := rfl
  rw [all]
  rcases station_cases i with rfl | rfl | rfl | rfl <;> simp [List.filter, overStations, Nat.add_assoc]

theorem freeTest_iff (f : Nat) : freeTest s i f = true ↔ PassesFreeTest s i f := by
  rw [freeTest, Bool.and_eq_true, Bool.or_eq_true, decide_eq_true_iff, decide_eq_true_iff, decide_eq_true_iff,
    unusedOthers, sum_others]
  rfl

theorem freeTest_eq_false {f : Nat} (h : ¬ PassesFreeTest s i f) : freeTest s i f = false := by
  rw [← Bool.not_eq_true, freeTest_iff]
  exact h

end FreeTest

/-! ### A voice given to a slot (R86, R91, R95) -/

section Give
variable {s : State} {i : StationId} {tag : Nat} {layer : LayerId} {v : VoiceId}

theorem voice_giveVoice_self (u : State) (v : VoiceId) (i : StationId) (tag : Nat) (layer : LayerId) :
    (giveVoice u v i tag layer).voice v =
      givenVoice u ⟨i, tag, layer⟩ ((slotOf u i tag layer).map Slot.copy)
        (slotPitch u i ((slotOf u i tag layer).map Slot.copy)) :=
  voice_updVoice_self u v fun _ =>
    givenVoice u ⟨i, tag, layer⟩ ((slotOf u i tag layer).map Slot.copy)
      (slotPitch u i ((slotOf u i tag layer).map Slot.copy))

theorem slotOf_congr {t : State} (h : t.stations = s.stations) : slotOf t i tag layer = slotOf s i tag layer := by
  unfold slotOf State.note State.station
  rw [h]

theorem slotPitch_of_note {u : State} {n : NoteRecord} {c : LayerCopy} (note : u.note i = some n) :
    ((slotPitch u i (some c) : Nat) : Int) = max 0 (min 8191 ((n.number : Int) * 64 + c.tone.transpose * 64
      + c.tone.fine + (u.station i).settings.transpose * 64)) := by
  simp only [slotPitch, note, pitchValue, clampPitch_cast]

/-- A voice given, whatever has left the pool before: the stations and the timebase say what it is given. -/
theorem givenTo_giveVoice {u : State} (stations : u.stations = s.stations) (time : u.timebase = s.timebase) :
    GivenTo s (giveVoice u v i tag layer) v i tag layer := by
  have station : u.station i = s.station i := congrArg (fun x : Vector Station 4 => x[i]) stations
  have note : u.note i = s.note i := congrArg (fun x : Station => x.fingering.note) station
  have slots : slotOf u i tag layer = slotOf s i tag layer := slotOf_congr stations
  unfold GivenTo
  rw [voice_giveVoice_self, slots]
  refine ⟨rfl, rfl, time, rfl, rfl, rfl, rfl, fun n x sounding slot => ?_⟩
  rw [slot, Option.map_some]
  refine ⟨rfl, ?_, rfl, ?_, rfl, ?_⟩
  · exact (slotPitch_of_note (note.trans sounding)).trans (by rw [station])
  · exact (clampPitch_cast _).trans (by rw [station]; rfl)
  · rw [giveVoice, slotOf_setSlot, if_pos ⟨rfl, rfl, rfl⟩]
    exact (congrArg _ (slots.trans slot)).trans rfl

theorem sameOtherVoices_giveVoice {u : State} (voices : ∀ w, w ≠ v → u.voice w = s.voice w) :
    SameOtherVoices s (giveVoice u v i tag layer) v := fun w other =>
  (voice_giveVoice_ne other).trans (voices w other)

end Give

/-! ### The first of the candidates (R87) -/

section Best
variable {rank : VoiceId → Nat}

theorem best_eq_none_iff {l : List VoiceId} : best rank l = none ↔ l = [] := by
  cases l with
  | nil => simp [best]
  | cons v l =>
    rw [best]
    split
    · split <;> simp
    · simp

/-- Of candidates in rising order the best is before all others: of greater rank, or of equal rank and lower. -/
theorem before_of_best {l : List VoiceId} (sorted : l.Pairwise (· < ·)) {v : VoiceId} (h : best rank l = some v) :
    ∀ w ∈ l, w ≠ v → rank w < rank v ∨ (rank w = rank v ∧ v < w) := by
  induction l generalizing v with
  | nil => cases h
  | cons a l ih =>
    obtain ⟨first, rest⟩ := List.pairwise_cons.1 sorted
    intro w hw other
    rw [best] at h
    split at h
    · next b hb =>
      have inTail := ih rest hb
      have lower := first b (mem_of_best hb)
      split at h
      · next le =>
        cases h
        have tail : w ∈ l := (List.mem_cons.1 hw).resolve_left other
        by_cases same : w = b
        · subst same
          rcases Nat.lt_or_eq_of_le le with less | equal
          · exact .inl less
          · exact .inr ⟨equal, lower⟩
        · rcases inTail w tail same with less | ⟨equal, after⟩
          · exact .inl (Nat.lt_of_lt_of_le less le)
          · rcases Nat.lt_or_eq_of_le le with less' | equal'
            · exact .inl (equal ▸ less')
            · exact .inr ⟨equal.trans equal', Fin.lt_trans lower after⟩
      · next gt =>
        cases h
        rcases List.mem_cons.1 hw with rfl | tail
        · exact .inl (by omega)
        · exact inTail w tail other
    · next hb =>
      cases h
      rw [best_eq_none_iff] at hb
      subst hb
      exact absurd (List.mem_singleton.1 hw) other

theorem sorted_filter (p : VoiceId → Bool) : (allVoices.filter p).Pairwise (· < ·) :=
  (List.pairwise_lt_finRange 32).filter p

theorem mem_filter_allVoices {p : VoiceId → Bool} {v : VoiceId} : v ∈ allVoices.filter p ↔ p v = true := by
  rw [List.mem_filter]
  exact ⟨fun h => h.2, fun h => ⟨List.mem_finRange v, h⟩⟩

/-- The best of the voices with a property is its first in an order that the ranks give. -/
theorem best_filter_iff {p : VoiceId → Bool} {tier : VoiceId → Prop} {before : VoiceId → VoiceId → Prop}
    (is : ∀ v, p v = true ↔ tier v)
    (order : ∀ v w, tier v → tier w → v ≠ w → (before v w ↔ rank w < rank v ∨ (rank w = rank v ∧ v < w))) (v : VoiceId) :
    best rank (allVoices.filter p) = some v ↔ FirstIn tier before v := by
  have first {u : VoiceId} (h : best rank (allVoices.filter p) = some u) : FirstIn tier before u := by
    have inTier : tier u := (is u).1 (mem_filter_allVoices.1 (mem_of_best h))
    refine ⟨inTier, fun w hw other => (order u w inTier hw other.symm).2 ?_⟩
    exact before_of_best (sorted_filter p) h w (mem_filter_allVoices.2 ((is w).2 hw)) other
  refine ⟨first, fun ⟨inTier, all⟩ => ?_⟩
  have member : v ∈ allVoices.filter p := mem_filter_allVoices.2 ((is v).2 inTier)
  cases h : best rank (allVoices.filter p) with
  | none =>
    rw [best_eq_none_iff.1 h] at member
    cases member
  | some u =>
    refine Classical.byContradiction fun other => ?_
    have different : u ≠ v := fun same => other (by rw [same])
    have one := (order v u inTier (first h).1 different.symm).1 (all u (first h).1 different)
    have two := (order u v (first h).1 inTier different).1 ((first h).2 v inTier different.symm)
    rcases one with one | ⟨equal, one⟩
    · rcases two with two | ⟨equal, two⟩ <;> omega
    · rcases two with two | ⟨-, two⟩
      · omega
      · exact absurd one (Fin.lt_asymm two)

theorem best_filter_none {p : VoiceId → Bool} {tier : VoiceId → Prop} (is : ∀ v, p v = true ↔ tier v) :
    best rank (allVoices.filter p) = none ↔ NoneIn tier := by
  rw [best_eq_none_iff, List.filter_eq_nil_iff]
  exact ⟨fun h v hv => h v (List.mem_finRange v) ((is v).2 hv), fun h v _ hv => h v ((is v).1 hv)⟩

end Best

/-! ### The orders of the tiers (R80, R87) -/

section Orders
variable {s : State}

theorem age_inj (a b : Word) : age s a = age s b ↔ a = b := by
  rw [age, age, BitVec.toNat_inj]
  exact BitVec.sub_right_inj _

theorem releasedBefore_iff (v w : VoiceId) : ReleasedBefore s v w ↔
    age s (s.voice w).releaseStart < age s (s.voice v).releaseStart
      ∨ (age s (s.voice w).releaseStart = age s (s.voice v).releaseStart ∧ v < w) := by
  rw [age_inj]
  rfl

theorem earliestRelease_iff {p : VoiceId → Bool} {tier : VoiceId → Prop} (is : ∀ v, p v = true ↔ tier v) (v : VoiceId) :
    earliestRelease s (allVoices.filter p) = some v ↔ FirstIn tier (ReleasedBefore s) v :=
  best_filter_iff is (fun v w _ _ _ => releasedBefore_iff v w) v

theorem earliestRelease_none {p : VoiceId → Bool} {tier : VoiceId → Prop} (is : ∀ v, p v = true ↔ tier v) :
    earliestRelease s (allVoices.filter p) = none ↔ NoneIn tier := best_filter_none is

theorem layerBefore_iff {v w : VoiceId} {o p : Owner} (hv : (s.voice v).owner = some o) (hw : (s.voice w).owner = some p) :
    LayerBefore s v w ↔
      layerOfVoice s w * 4294967296 + age s (s.voice w).claimTime
          < layerOfVoice s v * 4294967296 + age s (s.voice v).claimTime
        ∨ (layerOfVoice s w * 4294967296 + age s (s.voice w).claimTime
            = layerOfVoice s v * 4294967296 + age s (s.voice v).claimTime ∧ v < w) := by
  have first : layerOfVoice s v = o.layer.val := by rw [layerOfVoice, hv]; rfl
  have second : layerOfVoice s w = p.layer.val := by rw [layerOfVoice, hw]; rfl
  have young : age s (s.voice w).claimTime < 4294967296 := BitVec.isLt _
  have old : age s (s.voice v).claimTime < 4294967296 := BitVec.isLt _
  have times := age_inj (s := s) (s.voice w).claimTime (s.voice v).claimTime
  have meaning : LayerBefore s v w ↔ p.layer < o.layer ∨ (p.layer = o.layer
      ∧ (age s (s.voice w).claimTime < age s (s.voice v).claimTime
        ∨ ((s.voice w).claimTime = (s.voice v).claimTime ∧ v < w))) :=
    ⟨fun h => h o p hv hw, fun h o' p' ho hp => by
      cases hv.symm.trans ho
      cases hw.symm.trans hp
      exact h⟩
  rw [meaning, ← times, first, second]
  simp only [Fin.lt_def, Fin.ext_iff]
  omega

theorem highestLayer_iff {p : VoiceId → Bool} {tier : VoiceId → Prop} (is : ∀ v, p v = true ↔ tier v)
    (owned : ∀ v, tier v → ∃ o, (s.voice v).owner = some o) (v : VoiceId) :
    highestLayer s (allVoices.filter p) = some v ↔ FirstIn tier (LayerBefore s) v := by
  refine best_filter_iff is (fun v w hv hw _ => ?_) v
  obtain ⟨o, ho⟩ := owned v hv
  obtain ⟨q, hq⟩ := owned w hw
  exact layerBefore_iff ho hq

theorem highestLayer_none {p : VoiceId → Bool} {tier : VoiceId → Prop} (is : ∀ v, p v = true ↔ tier v) :
    highestLayer s (allVoices.filter p) = none ↔ NoneIn tier := best_filter_none is

end Orders

end Sys2Proof.Machine
end

section
/-! Claims (O32) and completions (O33). -/

namespace Sys2Proof.Machine

/-! ### The four tiers (R87) -/

section Tiers
variable {s : State} {i : StationId} {tag : Nat} {layer : LayerId}

theorem ownedBy_iff (x : Voice) (i : StationId) : x.ownedBy i = true ↔ ∃ o, x.owner = some o ∧ o.station = i := by
  rw [Voice.ownedBy]
  cases x.owner <;> simp

theorem ownedIn_pred (state : VoiceState) (v : VoiceId) :
    ((s.voice v).state == state && (s.voice v).ownedBy i) = true ↔ OwnedIn s i state v := by
  rw [Bool.and_eq_true, beq_iff_eq, ownedBy_iff]
  rfl

/-- A SOUNDING or RELEASING voice of another station over its reserve. -/
def OthersOver (s : State) (i : StationId) (state : VoiceState) (v : VoiceId) : Prop :=
  (s.voice v).state = state ∧ ∃ o, (s.voice v).owner = some o ∧ o.station ≠ i
    ∧ (s.station o.station).settings.reserve < stationCount s o.station

theorem othersOver_pred (state : VoiceState) (v : VoiceId) :
    ((s.voice v).state == state && (match (s.voice v).owner with
        | some o => o.station != i && overReserve s o.station
        | none => false)) = true ↔ OthersOver s i state v := by
  rw [Bool.and_eq_true, beq_iff_eq, OthersOver]
  refine and_congr_right fun _ => ?_
  cases (s.voice v).owner <;> simp [overReserve]

theorem tierC_pred (v : VoiceId) :
    ((s.voice v).state == .sounding && (match (s.voice v).owner with
        | some o => o.station == i && o.tag == tag && decide (layer < o.layer)
        | none => false)) = true ↔ TierC s i tag layer v := by
  rw [Bool.and_eq_true, beq_iff_eq, TierC]
  refine and_congr_right fun _ => ?_
  cases (s.voice v).owner <;> simp [and_assoc]

theorem tierA_iff (v : VoiceId) : tierA s i = some v ↔ FirstIn (TierA s i) (ReleasedBefore s) v :=
  earliestRelease_iff (fun v => ownedIn_pred .releasing v) v

theorem tierA_none : tierA s i = none ↔ NoneIn (TierA s i) :=
  earliestRelease_none fun v => ownedIn_pred .releasing v

theorem tierB_iff (v : VoiceId) : tierB s i = some v ↔ FirstIn (TierB s i) (ReleasedBefore s) v :=
  earliestRelease_iff (fun v => othersOver_pred .releasing v) v

theorem tierB_none : tierB s i = none ↔ NoneIn (TierB s i) :=
  earliestRelease_none fun v => othersOver_pred .releasing v

theorem tierC_iff (v : VoiceId) : tierC s i tag layer = some v ↔ FirstIn (TierC s i tag layer) (LayerBefore s) v :=
  highestLayer_iff (fun v => tierC_pred v) (fun _ ⟨_, o, owner, _⟩ => ⟨o, owner⟩) v

theorem tierC_none : tierC s i tag layer = none ↔ NoneIn (TierC s i tag layer) :=
  highestLayer_none fun v => tierC_pred v

theorem tierD_iff (v : VoiceId) : tierD s i = some v ↔ FirstIn (TierD s i) (LayerBefore s) v := by
  unfold tierD
  split
  · next under =>
    exact highestLayer_iff (fun v => (othersOver_pred .sounding v).trans (and_iff_right under).symm)
      (fun _ ⟨_, _, o, owner, _⟩ => ⟨o, owner⟩) v
  · next full => exact ⟨nofun, fun ⟨⟨under, _⟩, _⟩ => absurd under full⟩

theorem orElse_eq_some_iff {α : Type} (x y : Option α) (a : α) :
    (x <|> y) = some a ↔ x = some a ∨ (x = none ∧ y = some a) := by
  cases x <;> simp

theorem victimBelowCap_iff (below : stationCount s i < (s.station i).settings.cap) (v : VoiceId) :
    victimBelowCap s i tag layer = some v ↔ VictimOf s i tag layer v := by
  simp only [victimBelowCap, orElse_eq_some_iff, tierA_iff, tierA_none, tierB_iff, tierB_none, tierC_iff, tierC_none,
    tierD_iff, VictimOf, below, forall_const, true_and, and_or_left]

theorem victimAtCap_iff (full : ¬ stationCount s i < (s.station i).settings.cap) (v : VoiceId) :
    victimAtCap s i tag layer = some v ↔ VictimOf s i tag layer v := by
  simp only [victimAtCap, orElse_eq_some_iff, tierA_iff, tierA_none, tierC_iff, VictimOf, full, false_and, and_false,
    false_or, or_false, false_implies, true_and]

/-- A victim is RELEASING, or SOUNDING for a slot that is not the claimant. -/
theorem VictimOf.state {v : VoiceId} (h : VictimOf s i tag layer v) :
    (s.voice v).state = .releasing ∨ ((s.voice v).state = .sounding
      ∧ ∃ o, (s.voice v).owner = some o ∧ ¬ (o.station = i ∧ o.tag = tag ∧ o.layer = layer)) := by
  rcases h with ⟨⟨state, -⟩, -⟩ | ⟨-, -, ⟨state, -⟩, -⟩ | ⟨-, -, ⟨state, o, owner, -, -, above⟩, -⟩
    | ⟨-, -, -, -, ⟨-, state, o, owner, other, -⟩, -⟩
  · exact .inl state
  · exact .inl state
  · exact .inr ⟨state, o, owner, fun same => absurd above (by rw [same.2.2]; exact Fin.lt_irrefl layer)⟩
  · exact .inr ⟨state, o, owner, fun same => other same.1⟩

end Tiers

/-! ### A steal (R88) -/

section Steal
variable {s : State} {i : StationId} {tag : Nat} {layer : LayerId} {v : VoiceId}

theorem drainsFrom_toDrain (x : Voice) : DrainsFrom x x.toDrain := by
  refine ⟨rfl, rfl, rfl, rfl, rfl, rfl, rfl, rfl, rfl, fun other => ?_⟩
  rw [Voice.toDrain, beq_false_of_ne other, Bool.false_and]

theorem stealVoice_of_releasing (h : (s.voice v).state = .releasing) :
    stealVoice s v i tag layer =
      setSlot { s.updVoice v Voice.toDrain with claims := s.claims ++ [⟨i, tag, layer, v⟩] } i tag layer (.claiming v) := by
  rw [stealVoice, h]
  rfl

theorem stealVoice_of_sounding {o : Owner} (h : (s.voice v).state = .sounding) (owner : (s.voice v).owner = some o) :
    stealVoice s v i tag layer =
      setSlot
        { (starveSlot s o.station o.tag o.layer).updVoice v Voice.toDrain with
          claims := s.claims ++ [⟨i, tag, layer, v⟩] }
        i tag layer (.claiming v) := by
  rw [stealVoice, h, owner]
  rfl

theorem stolenFor_stealVoice (victim : VictimOf s i tag layer v) :
    StolenFor s (stealVoice s v i tag layer) v i tag layer := by
  have voice (u : State) (same : u.voices = s.voices) (cl : List Claim) : DrainsFrom (s.voice v)
      ((setSlot { u.updVoice v Voice.toDrain with claims := cl } i tag layer (.claiming v)).voice v)
      ∧ SameOtherVoices s (setSlot { u.updVoice v Voice.toDrain with claims := cl } i tag layer (.claiming v)) v := by
    have start (w : VoiceId) : u.voice w = s.voice w := congrArg (fun x : Vector Voice 32 => x[w]) same
    refine ⟨?_, fun w other => ?_⟩
    · have self : (setSlot { u.updVoice v Voice.toDrain with claims := cl } i tag layer (.claiming v)).voice v =
          (u.voice v).toDrain := voice_updVoice_self u v _
      rw [self, start]
      exact drainsFrom_toDrain _
    · exact (voice_updVoice_ne u v w _ other).trans (start w)
  rcases victim.state with releasing | ⟨sounding, o, owner, apart⟩
  · rw [stealVoice_of_releasing releasing]
    obtain ⟨drains, others⟩ := voice s rfl (s.claims ++ [⟨i, tag, layer, v⟩])
    refine ⟨drains, others, rfl, rfl, rfl, fun x slot => ?_, fun _ => rfl, fun o sounding => ?_⟩
    · rw [slotOf_setSlot, if_pos ⟨rfl, rfl, rfl⟩]
      exact congrArg (Option.map _) slot
    · rw [releasing] at sounding
      cases sounding
  · rw [stealVoice_of_sounding sounding owner]
    obtain ⟨drains, others⟩ := voice (starveSlot s o.station o.tag o.layer) rfl (s.claims ++ [⟨i, tag, layer, v⟩])
    refine ⟨drains, others, rfl, rfl, rfl, fun x slot => ?_, fun releasing => ?_, fun p _ owns => ?_⟩
    · have before : slotOf (starveSlot s o.station o.tag o.layer) i tag layer = some x := by
        refine (slotOf_setSlot s o.station i o.tag tag o.layer layer .starved).trans ?_
        rw [if_neg fun same => apart ⟨same.1.symm, same.2.1.symm, same.2.2.symm⟩]
        exact slot
      rw [slotOf_setSlot, if_pos ⟨rfl, rfl, rfl⟩]
      exact congrArg (Option.map _) before
    · rw [sounding] at releasing
      cases releasing
    · cases owner.symm.trans owns
      refine ⟨rfl, fun x slot => ?_⟩
      rw [slotOf_setSlot, if_neg fun same => apart same]
      refine (slotOf_setSlot s o.station o.station o.tag o.tag o.layer o.layer .starved).trans ?_
      rw [if_pos ⟨rfl, rfl, rfl⟩, slot, Option.map_some]

end Steal

/-! ### The claim (R85 to R89) -/

section Claim
variable {s : State} {i : StationId} {tag : Nat} {layer : LayerId}

theorem claimVoice_of_free {v : VoiceId} {rest : List VoiceId} (free : s.freeList = v :: rest)
    (passes : PassesFreeTest s i s.freeList.length) :
    claimVoice s i tag layer = giveVoice { s with freeList := rest } v i tag layer := by
  have below : ¬ (s.station i).settings.cap ≤ stationCount s i := Nat.not_le.2 passes.1
  have test := (freeTest_iff s i s.freeList.length).2 passes
  rw [free] at test
  simp only [claimVoice, if_neg below, free, test, if_true]

/-- A claim that no free voice serves goes to the victim, where there is one. -/
theorem claimVoice_of_none (none : s.freeList = [] ∨ ¬ PassesFreeTest s i s.freeList.length) :
    claimVoice s i tag layer =
      stealOrStarve s
        (if (s.station i).settings.cap ≤ stationCount s i then victimAtCap s i tag layer
          else victimBelowCap s i tag layer) i tag layer := by
  unfold claimVoice
  split
  · rfl
  · cases free : s.freeList with
    | nil => rfl
    | cons v rest =>
      have fails : freeTest s i s.freeList.length = false :=
        freeTest_eq_false s i (none.resolve_left (by rw [free]; exact List.cons_ne_nil v rest))
      rw [free] at fails
      simp only [fails, Bool.false_eq_true, if_false]

theorem victim_iff (v : VoiceId) :
    (if (s.station i).settings.cap ≤ stationCount s i then victimAtCap s i tag layer
      else victimBelowCap s i tag layer) = some v ↔ VictimOf s i tag layer v := by
  split
  · next full => exact victimAtCap_iff (Nat.not_lt.2 full) v
  · next below => exact victimBelowCap_iff (Nat.not_le.1 below) v

theorem claimVoice_of_victim (none : s.freeList = [] ∨ ¬ PassesFreeTest s i s.freeList.length) {v : VoiceId}
    (victim : VictimOf s i tag layer v) : claimVoice s i tag layer = stealVoice s v i tag layer := by
  rw [claimVoice_of_none none, (victim_iff v).2 victim]
  rfl

theorem claimVoice_of_noVictim (none : s.freeList = [] ∨ ¬ PassesFreeTest s i s.freeList.length)
    (noVictim : ∀ v, ¬ VictimOf s i tag layer v) : claimVoice s i tag layer = starveClaim s i tag layer := by
  rw [claimVoice_of_none none, Option.eq_none_iff_forall_ne_some.2 fun v is => noVictim v ((victim_iff v).1 is)]
  rfl

end Claim

/-- Settles O32. -/
theorem claimsAreServed : Obligations.ClaimsAreServed := by
  unfold Obligations.ClaimsAreServed
  refine fun s i tag layer => ⟨allocatorFrame_claimVoice s i tag layer, fun v rest free passes => ?served,
    fun none => ⟨fun v victim => ?stolen, fun noVictim => ?starved⟩⟩
  case served =>
    rw [claimVoice_of_free free passes]
    exact ⟨givenTo_giveVoice rfl rfl, sameOtherVoices_giveVoice fun w _ => rfl, rfl, rfl, rfl, rfl⟩
  case stolen =>
    rw [claimVoice_of_victim none victim]
    exact stolenFor_stealVoice victim
  case starved =>
    rw [claimVoice_of_noVictim none noVictim]
    refine ⟨rfl, rfl, rfl, rfl, fun x slot => ?_, rfl⟩
    refine (slotOf_setSlot s i i tag tag layer layer .starved).trans ?_
    rw [if_pos ⟨rfl, rfl, rfl⟩, slot, Option.map_some]

end Sys2Proof.Machine
end

section
/-! Completions and the arbiter (O33). -/

namespace Sys2Proof.Machine

section Arbiter
variable {s : State} {v : VoiceId}

/-- A voice of which nothing is left counts to no station, whatever it is counted by. -/
def freed (s : State) (v : VoiceId) : State := s.updVoice v fun _ => Voice.free

theorem freeVoice_of_none
    (none : ∀ e ∈ s.starve, ¬ PassesFreeTest (freed s v) e.station (s.freeList.length + 1)) :
    freeVoice s v = { freed s v with freeList := s.freeList ++ [v] } := by
  have search : (freed s v).starve.find? (fun e => freeTest (freed s v) e.station ((freed s v).freeList.length + 1)) =
      Option.none := by
    rw [List.find?_eq_none]
    intro e he passes
    exact none e he ((freeTest_iff _ _ _).1 passes)
  unfold freeVoice
  dsimp only
  split
  · next e found => cases found.symm.trans search
  · rfl

theorem freeVoice_of_some {before after : List Starved} {e : Starved} (list : s.starve = before ++ e :: after)
    (none : ∀ x ∈ before, ¬ PassesFreeTest (freed s v) x.station (s.freeList.length + 1))
    (passes : PassesFreeTest (freed s v) e.station (s.freeList.length + 1)) :
    freeVoice s v =
      giveVoice { freed s v with starve := before ++ after } v e.station e.tag e.layer := by
  have search : (freed s v).starve.find? (fun e => freeTest (freed s v) e.station ((freed s v).freeList.length + 1)) =
      some e := by
    have whole : (freed s v).starve = before ++ e :: after := list
    have skipped : before.find? (fun e => freeTest (freed s v) e.station ((freed s v).freeList.length + 1)) =
        Option.none := List.find?_eq_none.2 fun x hx pass => none x hx ((freeTest_iff _ _ _).1 pass)
    rw [whole, List.find?_append, skipped]
    have test : freeTest (freed s v) e.station ((freed s v).freeList.length + 1) = true := (freeTest_iff _ _ _).2 passes
    rw [Option.none_or, List.find?_cons, test]
  have absent : e ∉ before := fun member => none e member passes
  have rest : (freed s v).starve.erase e = before ++ after := by
    have whole : (freed s v).starve = before ++ e :: after := list
    rw [whole, List.erase_append_right _ absent, List.erase_cons_head]
  unfold freeVoice
  dsimp only
  split
  · next e' found =>
    cases found.symm.trans search
    exact congrArg (fun l => giveVoice { freed s v with starve := l } v e.station e.tag e.layer) rest
  · next found => cases found.symm.trans search

theorem passedOn_freeVoice (s : State) (v : VoiceId) : PassedOn s (freeVoice s v) v := by
  refine ⟨fun none => freeVoice_of_none none, fun before after e list none passes => ?_⟩
  rw [freeVoice_of_some list none passes]
  exact ⟨givenTo_giveVoice rfl rfl, rfl, rfl, rfl,
    sameOtherVoices_giveVoice fun w other => voice_updVoice_ne s v w (fun _ => Voice.free) other, rfl⟩

end Arbiter

/-! ### The handover (R91) -/

section Handover
variable {s : State} {v : VoiceId} {c : Claim}

theorem voice_of_claimOf (h : claimOf s v = some c) : c.voice = v := by
  rw [claimOf] at h
  simpa using List.find?_some h

theorem find?_filter_other {l : List Claim} {v w : VoiceId} (other : w ≠ v) :
    (l.filter fun x => x.voice != v).find? (fun x => x.voice == w) = l.find? fun x => x.voice == w := by
  rw [List.find?_filter]
  congr 1
  funext x
  by_cases same : x.voice = w
  · simp [same, other]
  · simp [same]

theorem claimOf_handOver_of_other (claim : claimOf s v = some c) {w : VoiceId} (other : w ≠ v) :
    claimOf (handOver s c) w = claimOf s w := by
  change (s.claims.filter fun x => x.voice != c.voice).find? _ = _
  rw [voice_of_claimOf claim]
  exact find?_filter_other other

theorem countsTo_handOver (claim : claimOf s v = some c) (draining : (s.voice v).state = .draining) (i : StationId)
    (w : VoiceId) : countsTo (handOver s c) i w = countsTo s i w := by
  have given := voice_of_claimOf claim
  by_cases same : w = v
  · subst same
    obtain ⟨state, owner, -⟩ := givenTo_giveVoice (s := s) (i := c.station) (tag := c.tag) (layer := c.layer) (v := w)
      (u := { s with claims := s.claims.filter fun x => x.voice != w }) rfl rfl
    have voice : (handOver s c).voice w =
        (giveVoice { s with claims := s.claims.filter fun x => x.voice != w } w c.station c.tag c.layer).voice w := by
      rw [handOver, given]
    rw [← voice] at state owner
    simp only [countsTo, state, draining, claim, Voice.ownedBy, owner]
  · have voice : (handOver s c).voice w = s.voice w := by
      rw [handOver, given]
      exact voice_giveVoice_ne same
    unfold countsTo
    rw [voice, claimOf_handOver_of_other claim same]

theorem stationCount_handOver (claim : claimOf s v = some c) (draining : (s.voice v).state = .draining) (i : StationId) :
    stationCount (handOver s c) i = stationCount s i := by
  rw [stationCount, stationCount]
  exact congrArg (fun p => List.countP p allVoices) (funext (countsTo_handOver claim draining i))

end Handover

/-- Settles O33. -/
theorem completionsAreActedOn : Obligations.CompletionsAreActedOn := by
  unfold Obligations.CompletionsAreActedOn
  refine ⟨fun s v releasing due => ⟨freeVoice s v, if_pos ⟨releasing, due⟩, passedOn_freeVoice s v,
      allocatorFrame_freeVoice s v⟩,
    fun s v draining orphan due => ⟨freeVoice s v, if_pos ⟨draining, due, orphan⟩, passedOn_freeVoice s v,
      allocatorFrame_freeVoice s v⟩,
    fun s b v named taken => ⟨fun faulted => ?retired, fun other => ?notHeld⟩, fun s v c draining claim due => ?drained⟩
  case retired =>
    have means : exec (.voiceRetire b) s = accept s 0x52 [b] (voiceRetireAnswer b) := rfl
    have taken : takesCommand s 0x52 [b] = true := taken
    refine ⟨freeVoice s v, ?_, passedOn_freeVoice s v, allocatorFrame_freeVoice s v⟩
    rw [means, accept_taken taken, voiceRetireAnswer, nameOf_of_toNat named]
    simp only [faulted, if_true]
  case notHeld =>
    refine exec_refused rfl taken ?_
    rw [voiceRetireAnswer, nameOf_of_toNat named]
    exact if_neg other
  case drained =>
    have given := voice_of_claimOf claim
    have means : exec (.drainCompletion v) s = .next (handOver s c) := by
      change execDrainCompletion v s = _
      rw [execDrainCompletion, claim]
      exact if_pos ⟨draining, due⟩
    refine ⟨handOver s c, means, allocatorFrame_handOver s c, ?_, ?_, ?_, rfl, rfl, rfl,
      stationCount_handOver claim draining⟩
    · rw [handOver, given]
      exact givenTo_giveVoice rfl rfl
    · rw [handOver, given]
      exact sameOtherVoices_giveVoice fun w _ => rfl
    · change s.claims.filter (fun x => x.voice != c.voice) = _
      rw [given]
      exact List.filter_congr fun x _ => by simp [bne, Bool.beq_eq_decide_eq]

end Sys2Proof.Machine
end

section
/-! A cap lowered under a sounding station (R101), one removal at a time. -/

namespace Sys2Proof.Machine

/-! ### Counts -/

section Counts
variable {s t : State} {i : StationId}

theorem countsTo_iff (s : State) (i : StationId) (v : VoiceId) : countsTo s i v = true ↔
    OwnedIn s i .sounding v ∨ OwnedIn s i .releasing v
      ∨ ((s.voice v).state = .draining ∧ ∃ c, claimOf s v = some c ∧ c.station = i) := by
  unfold countsTo OwnedIn
  rw [← ownedBy_iff]
  cases (s.voice v).state with
  | draining => cases claimOf s v <;> simp
  | sounding => simp
  | releasing => simp
  | free => simp
  | faulted => simp

theorem countP_lt {p q : VoiceId → Bool} {l : List VoiceId} (le : ∀ w, p w = true → q w = true) {v : VoiceId}
    (member : v ∈ l) (had : q v = true) (lost : p v = false) : l.countP p < l.countP q := by
  induction l with
  | nil => cases member
  | cons a l ih =>
    have rest : l.countP p ≤ l.countP q := List.countP_mono_left fun w _ => le w
    rw [List.countP_cons, List.countP_cons]
    rcases List.mem_cons.1 member with rfl | tail
    · rw [had, lost]
      exact Nat.lt_succ_of_le rest
    · have head : (if p a = true then 1 else 0) ≤ if q a = true then 1 else 0 := by
        by_cases pa : p a = true
        · exact Nat.le_of_eq ((if_pos pa).trans (if_pos (le a pa)).symm)
        · rw [if_neg pa]
          exact Nat.zero_le _
      have := ih tail
      omega

/-- A station that loses a voice and gains none has a lower count. -/
theorem stationCount_lt (le : ∀ w, countsTo t i w = true → countsTo s i w = true) {v : VoiceId}
    (had : countsTo s i v = true) (lost : countsTo t i v = false) : stationCount t i < stationCount s i :=
  countP_lt le (List.mem_finRange v) had lost

theorem exists_counted (h : 0 < stationCount s i) : ∃ v, countsTo s i v = true := by
  obtain ⟨v, -, counts⟩ := List.countP_pos_iff.1 h
  exact ⟨v, counts⟩

theorem stationCount_le (s : State) (i : StationId) : stationCount s i ≤ 32 := List.countP_le_length

end Counts

/-! ### A voice that leaves its station (R101) -/

section Orphan
variable {s : State} {i : StationId} {v : VoiceId} {state : VoiceState}

/-- A SOUNDING or RELEASING voice made an orphan leaves the pool's lists sound. -/
theorem poolOk_drained (ok : PoolOk s) (busy : (s.voice v).state ≠ .free) : PoolOk (s.updVoice v Voice.toDrain) := by
  rw [← listsOk_view] at ok ⊢
  rw [view_updVoice]
  exact ok.setVoice (x := .draining) busy nofun (fun other => absurd rfl other) _

theorem claimOf_of_notDraining (ok : PoolOk s) (other : (s.voice v).state ≠ .draining) : claimOf s v = none := by
  cases claim : claimOf s v with
  | none => rfl
  | some c =>
    obtain ⟨member, voice⟩ := (claimOf_eq_some_iff ok v c).1 claim
    exact absurd (ok.2.2.2 v (voice ▸ List.mem_map_of_mem member)) other

theorem countsTo_drained_of_other {w : VoiceId} (other : w ≠ v) :
    countsTo (s.updVoice v Voice.toDrain) i w = countsTo s i w := by
  have voice : (s.updVoice v Voice.toDrain).voice w = s.voice w := voice_updVoice_ne s v w _ other
  unfold countsTo
  rw [voice]
  rfl

theorem countsTo_drained_self (ok : PoolOk s) (other : (s.voice v).state ≠ .draining) :
    countsTo (s.updVoice v Voice.toDrain) i v = false := by
  have voice : (s.updVoice v Voice.toDrain).voice v = (s.voice v).toDrain := voice_updVoice_self s v _
  have claim : claimOf (s.updVoice v Voice.toDrain) v = none :=
    claimOf_of_notDraining (s := s) ok other
  unfold countsTo
  rw [voice, claim]
  rfl

theorem stationCount_drained_lt (ok : PoolOk s) (counts : countsTo s i v = true)
    (other : (s.voice v).state ≠ .draining) : stationCount (s.updVoice v Voice.toDrain) i < stationCount s i := by
  refine stationCount_lt (fun w hw => ?_) counts (countsTo_drained_self ok other)
  by_cases same : w = v
  · rw [same]
    exact counts
  · rwa [countsTo_drained_of_other same] at hw

theorem orphanedFrom_drained (s : State) (v : VoiceId) : OrphanedFrom s (s.updVoice v Voice.toDrain) v := by
  have voice : (s.updVoice v Voice.toDrain).voice v = (s.voice v).toDrain := voice_updVoice_self s v _
  refine ⟨?_, fun w other => voice_updVoice_ne s v w _ other, rfl, rfl, rfl⟩
  rw [voice]
  exact drainsFrom_toDrain _

theorem starvedNow_starveSlot {t : State} (starve : t.starve = s.starve) (stations : t.stations = s.stations)
    (i : StationId) (tag : Nat) (layer : LayerId) : StarvedNow s (starveSlot t i tag layer) i tag layer := by
  refine ⟨congrArg (· ++ [(⟨i, tag, layer⟩ : Starved)]) starve, fun x slot => ?_⟩
  refine (slotOf_setSlot t i i tag tag layer layer .starved).trans ?_
  rw [if_pos ⟨rfl, rfl, rfl⟩, slotOf_congr stations, slot, Option.map_some]

theorem poolOk_starveSlot (ok : PoolOk s) (j : StationId) (tag : Nat) (layer : LayerId) :
    PoolOk (starveSlot s j tag layer) := ok

end Orphan

/-! ### A claim removed -/

section Claim
variable {s : State} {i : StationId} {c : Claim}

theorem poolOk_dropClaim (ok : PoolOk s) (i : StationId) (tag : Nat) (layer : LayerId) :
    PoolOk (dropClaim s i tag layer) := by
  rw [← listsOk_view] at ok ⊢
  rw [view_dropClaim]
  exact ok.dropClaim _

theorem claimOf_dropClaim (ok : PoolOk s) {tag : Nat} {layer : LayerId} {v : VoiceId} {d : Claim}
    (claim : claimOf (dropClaim s i tag layer) v = some d) :
    claimOf s v = some d ∧ ¬ (d.station = i ∧ d.tag = tag ∧ d.layer = layer) := by
  obtain ⟨member, voice⟩ := (claimOf_eq_some_iff (poolOk_dropClaim ok i tag layer) v d).1 claim
  obtain ⟨was, other⟩ := mem_claims_dropClaim.1 member
  exact ⟨(claimOf_eq_some_iff ok v d).2 ⟨was, voice⟩, other⟩

theorem stationCount_dropClaim_lt (ok : PoolOk s) (member : c ∈ s.claims) (own : c.station = i) :
    stationCount (dropClaim s i c.tag c.layer) i < stationCount s i := by
  have claim : claimOf s c.voice = some c := (claimOf_eq_some_iff ok c.voice c).2 ⟨member, rfl⟩
  have draining : (s.voice c.voice).state = .draining := ok.2.2.2 _ (List.mem_map_of_mem member)
  refine stationCount_lt (fun w hw => ?_) ((countsTo_iff s i c.voice).2 (.inr (.inr ⟨draining, c, claim, own⟩))) ?_
  · rw [countsTo_iff] at hw ⊢
    refine hw.imp id (Or.imp id fun ⟨state, d, claimed, station⟩ => ⟨state, d, (claimOf_dropClaim ok claimed).1, station⟩)
  · have gone : claimOf (dropClaim s i c.tag c.layer) c.voice = none := by
      cases still : claimOf (dropClaim s i c.tag c.layer) c.voice with
      | none => rfl
      | some d =>
        obtain ⟨was, other⟩ := claimOf_dropClaim ok still
        cases claim.symm.trans was
        exact absurd ⟨own, rfl, rfl⟩ other
    have state : ((dropClaim s i c.tag c.layer).voice c.voice).state = .draining := draining
    unfold countsTo
    rw [state, gone]

end Claim

/-! ### One removal (R101) -/

section Remove
variable {s : State} {i : StationId} {v : VoiceId}

theorem removeOne_of_releasing (first : FirstIn (OwnedIn s i .releasing) (ReleasedBefore s) v) :
    removeOne s i = s.updVoice v Voice.toDrain := by
  have found : earliestRelease s (ownedIn s i .releasing) = some v :=
    (earliestRelease_iff (fun v => ownedIn_pred .releasing v) v).2 first
  rw [removeOne, found]

theorem removeOne_of_sounding {o : Owner} (none : NoneIn (OwnedIn s i .releasing))
    (first : FirstIn (OwnedIn s i .sounding) (LayerBefore s) v) (owner : (s.voice v).owner = some o) :
    removeOne s i = starveSlot (s.updVoice v Voice.toDrain) i o.tag o.layer := by
  have noRelease : earliestRelease s (ownedIn s i .releasing) = Option.none :=
    (earliestRelease_none fun v => ownedIn_pred .releasing v).2 none
  have found : highestLayer s (ownedIn s i .sounding) = some v :=
    (highestLayer_iff (fun v => ownedIn_pred .sounding v) (fun _ ⟨_, o, owner, _⟩ => ⟨o, owner⟩) v).2 first
  simp only [removeOne, noRelease, found, owner]

theorem removeOne_of_claim {before after : List Claim} {c : Claim} (noRelease : NoneIn (OwnedIn s i .releasing))
    (noSounding : NoneIn (OwnedIn s i .sounding)) (list : s.claims = before ++ c :: after) (own : c.station = i)
    (last : ∀ x ∈ after, x.station ≠ i) :
    removeOne s i = starveSlot (dropClaim s i c.tag c.layer) i c.tag c.layer := by
  have releases : earliestRelease s (ownedIn s i .releasing) = none :=
    (earliestRelease_none fun v => ownedIn_pred .releasing v).2 noRelease
  have sounds : highestLayer s (ownedIn s i .sounding) = none :=
    (highestLayer_none fun v => ownedIn_pred .sounding v).2 noSounding
  have skipped : after.reverse.find? (fun c => c.station == i) = none := by
    rw [List.find?_eq_none]
    intro x hx
    simpa using last x (List.mem_reverse.1 hx)
  have found : s.claims.reverse.find? (fun c => c.station == i) = some c := by
    rw [list, List.reverse_append, List.reverse_cons, List.append_assoc, List.find?_append, skipped, Option.none_or,
      List.singleton_append, List.find?_cons, own, beq_self_eq_true]
  simp only [removeOne, releases, sounds, found]

/-- The claims of a station that has one, its last in view. -/
theorem exists_last_claim {l : List Claim} (h : ∃ c ∈ l, c.station = i) :
    ∃ before c after, l = before ++ c :: after ∧ c.station = i ∧ ∀ x ∈ after, x.station ≠ i := by
  induction l with
  | nil =>
    obtain ⟨c, none, -⟩ := h
    cases none
  | cons a l ih =>
    by_cases later : ∃ c ∈ l, c.station = i
    · obtain ⟨before, c, after, rfl, own, last⟩ := ih later
      exact ⟨a :: before, c, after, rfl, own, last⟩
    · obtain ⟨c, member, own⟩ := h
      rcases List.mem_cons.1 member with rfl | tail
      · exact ⟨[], c, l, rfl, own, fun x hx station => later ⟨x, hx, station⟩⟩
      · exact absurd ⟨c, tail, own⟩ later

/-- The three removals of R101, of which a station that counts a voice has one. -/
theorem removal_cases (counted : 0 < stationCount s i) :
    (∃ v, FirstIn (OwnedIn s i .releasing) (ReleasedBefore s) v)
      ∨ (NoneIn (OwnedIn s i .releasing) ∧ ∃ v o, FirstIn (OwnedIn s i .sounding) (LayerBefore s) v
          ∧ (s.voice v).owner = some o ∧ o.station = i)
      ∨ (NoneIn (OwnedIn s i .releasing) ∧ NoneIn (OwnedIn s i .sounding)
          ∧ ∃ before c after, s.claims = before ++ c :: after ∧ c.station = i ∧ ∀ x ∈ after, x.station ≠ i) := by
  cases releasing : earliestRelease s (ownedIn s i .releasing) with
  | some v => exact .inl ⟨v, (earliestRelease_iff (fun v => ownedIn_pred .releasing v) v).1 releasing⟩
  | none =>
    have noRelease := (earliestRelease_none fun v => ownedIn_pred .releasing v).1 releasing
    right
    cases sounding : highestLayer s (ownedIn s i .sounding) with
    | some v =>
      have first := (highestLayer_iff (fun v => ownedIn_pred .sounding v) (fun _ ⟨_, o, owner, _⟩ => ⟨o, owner⟩) v).1
        sounding
      obtain ⟨⟨-, o, owner, own⟩, -⟩ := id first
      exact .inl ⟨noRelease, v, o, first, owner, own⟩
    | none =>
      have noSounding := (highestLayer_none fun v => ownedIn_pred .sounding v).1 sounding
      refine .inr ⟨noRelease, noSounding, exists_last_claim ?_⟩
      obtain ⟨w, counts⟩ := exists_counted counted
      rcases (countsTo_iff s i w).1 counts with sounds | releases | ⟨-, c, claim, own⟩
      · exact absurd sounds (noSounding w)
      · exact absurd releases (noRelease w)
      · exact ⟨c, List.mem_of_find?_eq_some claim, own⟩

/-- A removal keeps the pool's lists sound and the free list and the faults as they were, and lowers the count. -/
theorem removeOne_spec (ok : PoolOk s) (counted : 0 < stationCount s i) :
    PoolOk (removeOne s i) ∧ stationCount (removeOne s i) i < stationCount s i
      ∧ (removeOne s i).freeList = s.freeList ∧ (removeOne s i).faults = s.faults := by
  rcases removal_cases counted with ⟨v, first⟩ | ⟨none, v, o, first, owner, own⟩
    | ⟨noRelease, noSounding, before, c, after, list, own, last⟩
  · have state : (s.voice v).state = .releasing := first.1.1
    have counts : countsTo s i v = true := (countsTo_iff s i v).2 (.inr (.inl first.1))
    rw [removeOne_of_releasing first]
    exact ⟨poolOk_drained ok (by rw [state]; exact nofun),
      stationCount_drained_lt ok counts (by rw [state]; exact nofun), rfl, rfl⟩
  · have state : (s.voice v).state = .sounding := first.1.1
    have counts : countsTo s i v = true := (countsTo_iff s i v).2 (.inl first.1)
    rw [removeOne_of_sounding none first owner]
    exact ⟨poolOk_starveSlot (poolOk_drained ok (by rw [state]; exact nofun)) _ _ _,
      stationCount_drained_lt ok counts (by rw [state]; exact nofun), rfl, rfl⟩
  · have member : c ∈ s.claims := by
      rw [list]
      exact List.mem_append_right _ (List.mem_cons_self ..)
    rw [removeOne_of_claim noRelease noSounding list own last]
    exact ⟨poolOk_starveSlot (poolOk_dropClaim ok _ _ _) _ _ _, stationCount_dropClaim_lt ok member own, rfl, rfl⟩

/-! ### Removals down to the cap -/

theorem cap_removeOne (s : State) (i : StationId) :
    ((removeOne s i).station i).settings.cap = (s.station i).settings.cap :=
  congrArg (fun x : Config => x.settings.cap) ((allocatorFrame_removeOne s i).sameStation i).config

theorem removeToCap_of_within {fuel : Nat} (within : stationCount s i ≤ (s.station i).settings.cap) :
    removeToCap i fuel s = s := by
  cases fuel with
  | zero => rfl
  | succ fuel => rw [removeToCap, if_pos within]

theorem removeToCap_of_above {fuel : Nat} (above : (s.station i).settings.cap < stationCount s i) :
    removeToCap i (fuel + 1) s = removeToCap i fuel (removeOne s i) := by
  rw [removeToCap, if_neg (Nat.not_le.2 above)]

/-- Removals in number of the excess are enough. -/
theorem removeToCap_succ {fuel : Nat} : ∀ {s : State}, PoolOk s →
    stationCount s i ≤ (s.station i).settings.cap + fuel → removeToCap i (fuel + 1) s = removeToCap i fuel s := by
  induction fuel with
  | zero =>
    intro s _ enough
    rw [removeToCap_of_within enough, removeToCap_of_within enough]
  | succ fuel ih =>
    intro s ok enough
    by_cases within : stationCount s i ≤ (s.station i).settings.cap
    · rw [removeToCap_of_within within, removeToCap_of_within within]
    · obtain ⟨kept, lower, -⟩ := removeOne_spec ok (Nat.lt_of_le_of_lt (Nat.zero_le _) (Nat.not_le.1 within))
      rw [removeToCap_of_above (Nat.not_le.1 within), removeToCap_of_above (Nat.not_le.1 within)]
      exact ih kept (by rw [cap_removeOne]; omega)

theorem lowerToCap_of_within (within : stationCount s i ≤ (s.station i).settings.cap) : lowerToCap s i = s :=
  removeToCap_of_within within

theorem lowerToCap_of_above (ok : PoolOk s) (above : (s.station i).settings.cap < stationCount s i) :
    lowerToCap s i = lowerToCap (removeOne s i) i := by
  obtain ⟨kept, lower, -⟩ := removeOne_spec ok (Nat.lt_of_le_of_lt (Nat.zero_le _) above)
  have most := stationCount_le s i
  have enough : removeToCap i 32 (removeOne s i) = removeToCap i 31 (removeOne s i) :=
    removeToCap_succ kept (by omega)
  rw [lowerToCap, removeToCap_of_above above, lowerToCap, enough]

end Remove

end Sys2Proof.Machine
end

section
/-! STATION_SET in its order (O31). -/

namespace Sys2Proof.Machine

/-! ### The steps of R128 -/

section Order
variable {s : State} {i : StationId} {new : Settings}

theorem settings_settingsStored (s : State) (i : StationId) (new : Settings) :
    ((settingsStored s i new).station i).settings = new := by
  have config := config_actOnEnable (s.updStation i fun x => { x with settings := new }) i (s.station i).settings
  rw [station_updStation_self] at config
  exact congrArg Config.settings config

theorem settingsStored_of_equal (same : (s.station i).settings.enable = new.enable) :
    settingsStored s i new = s.updStation i fun x => { x with settings := new } := settingsStored_of_same same.symm

/-- The at-once effects on the breath state, in the words of the rules (R14, R16, R18). -/
theorem settingsActOnBreath_eq (u : State) (i : StationId) (old : Settings) (is : (u.station i).settings = new) :
    settingsActOnBreath u i old =
      u.updStation i fun x =>
        { x with breath := x.breath.actedOn new.ceiling new.bendRange (decide (new.overblow ≠ old.overblow)) } := by
  refine updStation_congr ?_
  rw [actOnBreath_eq_actedOn, is]
  congr 2
  rw [bne, Bool.beq_eq_decide_eq, decide_not]
  simp only [eq_comm]

theorem actOnStall_eq (u : State) (i : StationId) (is : (u.station i).settings = new) (charts : u.charts = s.charts) :
    actOnStall u i = if s.charts.busy new.chart then u else resumeStall u i := by
  rw [actOnStall, is, charts]

theorem actOnCap_eq (u : State) (i : StationId) (old : Settings) (is : (u.station i).settings = new) :
    actOnCap u i old = if new.cap < old.cap then lowerToCap u i else u := by
  rw [actOnCap, is]

theorem actOnPool_eq (u : State) (old new : Settings) :
    actOnPool u old new = if new.reserve = old.reserve ∧ new.cap = old.cap then u else serveStarved u := by
  rw [actOnPool]
  refine ite_congr ?_ (fun _ => rfl) fun _ => rfl
  rw [eq_comm (a := new.reserve), eq_comm (a := new.cap)]

theorem charts_actOnEnable (u : State) (i : StationId) (old : Settings) : (actOnEnable u i old).charts = u.charts := by
  unfold actOnEnable
  split
  · obtain ⟨⟨charts, -⟩, -⟩ := engineFrame_disableStation u i
    exact charts
  · rfl
  · rfl
  · rfl

end Order

/-! ### The starve list's service (R96) -/

section Serve
variable {s : State} {e : Starved} {rest : List Starved}

theorem serveEntries_of_noVoice (h : s.freeList = []) (l : List Starved) : serveEntries l s = s := by
  cases l with
  | nil => rfl
  | cons e rest => rw [serveEntries, h]

theorem serveEntries_of_fails (fails : ¬ PassesFreeTest s e.station s.freeList.length) :
    serveEntries (e :: rest) s = serveEntries rest s := by
  cases free : s.freeList with
  | nil => rw [serveEntries_of_noVoice free, serveEntries_of_noVoice free]
  | cons v fl =>
    have test := freeTest_eq_false s e.station fails
    rw [free] at test
    simp only [serveEntries, free, test, Bool.false_eq_true, if_false]

theorem serveEntries_of_passes {v : VoiceId} {fl : List VoiceId} (free : s.freeList = v :: fl)
    (passes : PassesFreeTest s e.station s.freeList.length) :
    serveEntries (e :: rest) s =
      serveEntries rest
        (giveVoice { s with freeList := fl, starve := s.starve.erase e } v e.station e.tag e.layer) := by
  have test := (freeTest_iff s e.station s.freeList.length).2 passes
  rw [free] at test
  simp only [serveEntries, free, test, if_true]

end Serve

/-- Settles O31. -/
theorem stationSetActsInItsOrder : Obligations.StationSetActsInItsOrder := by
  unfold Obligations.StationSetActsInItsOrder
  refine ⟨fun s p i named taken template chart fits => ?order, fun s i within => lowerToCap_of_within within,
    fun s i ok above => ?removal, fun s => rfl, fun s => rfl,
    fun s e rest => ⟨fun none => serveEntries_of_noVoice none _, fun fails => serveEntries_of_fails fails,
      fun v free list passes => ?served⟩⟩
  case order =>
    obtain ⟨new, hnew⟩ : ∃ new, new = settingsOf p ⟨p.template.toNat, template⟩ ⟨p.chart.toNat, chart⟩ := ⟨_, rfl⟩
    have means := exec_stationSet_passed (tm := ⟨p.template.toNat, template⟩) (ch := ⟨p.chart.toNat, chart⟩) named rfl rfl
      fits taken
    rw [← hnew] at means
    obtain ⟨old, hold⟩ : ∃ old, old = (s.station i).settings := ⟨_, rfl⟩
    obtain ⟨u1, h1⟩ : ∃ u, u = settingsStored s i new := ⟨_, rfl⟩
    obtain ⟨u2, h2⟩ : ∃ u, u = settingsActOnBreath u1 i old := ⟨_, rfl⟩
    obtain ⟨u3, h3⟩ : ∃ u, u = actOnStall u2 i := ⟨_, rfl⟩
    obtain ⟨u4, h4⟩ : ∃ u, u = actOnCap u3 i old := ⟨_, rfl⟩
    have settings1 : (u1.station i).settings = new := by rw [h1]; exact settings_settingsStored s i new
    have settings2 : (u2.station i).settings = new := by
      rw [h2]
      exact (congrArg Config.settings (config_settingsActOnBreath u1 i old)).trans settings1
    have settings3 : (u3.station i).settings = new := by
      rw [h3]
      exact (congrArg Config.settings (config_actOnStall u2 i)).trans settings2
    have charts : u2.charts = s.charts := by
      rw [h2, h1]
      exact charts_actOnEnable _ i _
    have final : applySettings s i new = actOnPool u4 old new := by
      rw [h4, h3, h2, h1, hold]
      rfl
    have config := congrArg Config.settings (config_applySettings s i new)
    refine ⟨applySettings s i new, s.updStation i fun x => { x with settings := new }, u1, u2, u3, u4, _, old, new, means,
      hold, config.symm, rfl, fun same => ?_, fun was now => ?_, fun was now => ?_, ?_, ?_, ?_, ?_⟩
    · rw [h1]
      exact settingsStored_of_equal (hold ▸ same)
    · rw [h1]
      exact settingsStored_of_disables (hold ▸ was) now
    · rw [h1, settingsStored_of_enables (hold ▸ was) now, updStation_updStation]
    · rw [h2]
      exact settingsActOnBreath_eq u1 i old settings1
    · rw [h3]
      exact actOnStall_eq u2 i settings2 charts
    · rw [h4]
      exact actOnCap_eq u3 i old settings3
    · rw [final]
      exact actOnPool_eq u4 old new
  case removal =>
    obtain ⟨kept, lower, free, faults⟩ := removeOne_spec ok (Nat.lt_of_le_of_lt (Nat.zero_le _) above)
    refine ⟨removeOne s i, lowerToCap_of_above ok above, lower, kept, allocatorFrame_removeOne s i, free, faults,
      fun v first => ?_, fun v o none first owner => ?_, fun before after c noRelease noSounding list own last => ?_⟩
    · rw [removeOne_of_releasing first]
      exact ⟨orphanedFrom_drained s v, rfl, rfl⟩
    · rw [removeOne_of_sounding none first owner]
      exact ⟨orphanedFrom_drained s v, starvedNow_starveSlot rfl rfl i o.tag o.layer⟩
    · rw [removeOne_of_claim noRelease noSounding list own last]
      refine ⟨rfl, starvedNow_starveSlot rfl rfl i c.tag c.layer, ?_⟩
      refine List.filter_congr fun x _ => ?_
      simp [Bool.beq_eq_decide_eq, Bool.or_assoc]
  case served =>
    refine ⟨_, serveEntries_of_passes list passes, givenTo_giveVoice rfl rfl, sameOtherVoices_giveVoice fun w _ => rfl,
      (allocatorFrame_poolFields s _ _ _ _).trans (allocatorFrame_giveVoice _ v _ _ _), rfl, rfl, rfl, rfl⟩

end Sys2Proof.Machine
end

section
/-! The outputs of the stations and their clip reports (O49). -/

namespace Sys2Proof.Machine

section Limit
variable (x : Int) (g : Nat)

theorem limitOutput_eq : limitOutput x g = max (-8388607) (min 8388607 (x * (g : Int) / 16)) := rfl

/-- The limit has changed what lies beyond it. -/
theorem saturated_eq : saturated x g = decide (x * (g : Int) / 16 < -8388607 ∨ 8388607 < x * (g : Int) / 16) := by
  rw [saturated, limitOutput_eq, bne, Bool.beq_eq_decide_eq, ← decide_not]
  refine decide_eq_decide.2 ?_
  generalize x * (g : Int) / 16 = y
  omega

end Limit

section Clips
variable {s : State} {i : StationId} {sums : Sums}

theorem clipDetail_of_live (live : (s.station i).state ≠ .disabled) (p : Pair) : clipDetail s i p =
    (if saturated p.left (s.station i).settings.outGain then 1 else 0)
      + (if saturated p.right (s.station i).settings.outGain then 2 else 0) := if_neg live

/-- A period without a report: no channel is saturated, or the run has begun before. -/
theorem clipStation_of_quiet (quiet : clipDetail s i sums[i] = 0 ∨ s.audio.clip[i] = true) :
    clipStation sums s i =
      { s with audio := { s.audio with clip := s.audio.clip.set i (clipDetail s i sums[i] != 0) } } := by
  have no : ¬ (clipDetail s i sums[i] ≠ 0 ∧ s.audio.clip[i] = false) := by
    rintro ⟨loud, first⟩
    rcases quiet with none | running
    · exact loud none
    · exact Bool.noConfusion (first.symm.trans running)
  rw [clipStation]
  dsimp only
  rw [if_neg no]

/-- The first saturated period of a run is reported. -/
theorem clipStation_of_first (loud : clipDetail s i sums[i] ≠ 0) (first : s.audio.clip[i] = false) :
    clipStation sums s i =
      { report s .audioClip (some i) none none (BitVec.ofNat 32 (clipDetail s i sums[i])) with
        audio := { s.audio with clip := s.audio.clip.set i (clipDetail s i sums[i] != 0) } } := by
  rw [clipStation]
  dsimp only
  rw [if_pos ⟨loud, first⟩]
  rfl

theorem audio_clipStation (sums : Sums) (s : State) (i : StationId) : (clipStation sums s i).audio =
    { s.audio with clip := s.audio.clip.set i (clipDetail s i sums[i] != 0) } := by
  unfold clipStation
  dsimp only
  split <;> rfl

end Clips

/-- Settles O49: the clip detail is 0 exactly where neither limit has changed its channel. -/
theorem outputsAreLimitedAndClipped : Obligations.OutputsAreLimitedAndClipped := by
  unfold Obligations.OutputsAreLimitedAndClipped
  refine fun s sums i => ⟨fun off => ⟨if_pos off, ?silent⟩, fun l r satL satR live hl hr hL hR => ?live⟩
  case silent =>
    have detail : clipDetail s i sums[i] = 0 := if_pos off
    rw [clipStation_of_quiet (.inl detail), detail]
    rfl
  case live =>
    have satL_eq : saturated sums[i].left (s.station i).settings.outGain = satL := by rw [saturated_eq, hL, hl]
    have satR_eq : saturated sums[i].right (s.station i).settings.outGain = satR := by rw [saturated_eq, hR, hr]
    have detail := clipDetail_of_live live sums[i]
    rw [satL_eq, satR_eq] at detail
    have loud_iff : (clipDetail s i sums[i] != 0) = (satL || satR) := by
      rw [detail]
      cases satL <;> cases satR <;> rfl
    refine ⟨?_, ?_, fun loud first => ?_, fun quiet => ?_⟩
    · rw [hl, hr]
      exact if_neg live
    · rw [audio_clipStation, loud_iff]
    · rw [clipStation_of_first (bne_iff_ne.1 (loud_iff.trans loud)) first, detail]
      rfl
    · rw [clipStation_of_quiet (quiet.imp_left fun none => ?_)]
      have := loud_iff.trans none
      simpa using this

end Sys2Proof.Machine
end

section
/-! Retunes and the glide of the base pitch (O52). -/

namespace Sys2Proof.Machine

/-! ### Retunes -/

section Retune
variable {s : State} {i : StationId} {number : Nat}

theorem retuneSlot_of_voiced {x : Slot} {v : VoiceId} (h : x.state = .voiced v) : retuneSlot i number s x =
    s.updVoice v fun y => y.retarget (pitchValue s i number x.copy.tone) (s.station i).settings.glide := by
  rw [retuneSlot, h]

/-- A slot's retune changes voices only. -/
theorem retuneSlot_voices (s : State) (x : Slot) :
    retuneSlot i number s x = { s with voices := (retuneSlot i number s x).voices } := by
  unfold retuneSlot
  split <;> rfl

/-- A slot's retune leaves the voices it is not VOICED with. -/
theorem voice_retuneSlot {x : Slot} {v : VoiceId} (h : x.state ≠ .voiced v) :
    (retuneSlot i number s x).voice v = s.voice v := by
  unfold retuneSlot
  split
  case h_1 w is => exact voice_updVoice_ne s w v _ fun e => h (e ▸ is)
  all_goals rfl

theorem retuneSlots_voices (l : List Slot) (s : State) :
    l.foldl (retuneSlot i number) s = { s with voices := (l.foldl (retuneSlot i number) s).voices } := by
  induction l generalizing s with
  | nil => rfl
  | cons x l ih =>
    rw [List.foldl_cons, ih, retuneSlot_voices s x]

theorem voice_retuneSlots {l : List Slot} {v : VoiceId} : ∀ {s : State}, (∀ x ∈ l, x.state ≠ .voiced v) →
    (l.foldl (retuneSlot i number) s).voice v = s.voice v := by
  induction l with
  | nil => exact fun _ => rfl
  | cons x l ih =>
    intro s h
    obtain ⟨head, tail⟩ := List.forall_mem_cons.1 h
    exact (ih tail).trans (voice_retuneSlot head)

/-- The voice of the one slot VOICED with it receives that slot's pitch. -/
theorem voice_retuneSlots_voiced {before after : List Slot} {x : Slot} {v : VoiceId} (voiced : x.state = .voiced v)
    (others : ∀ y ∈ before ++ after, y.state ≠ .voiced v) :
    ((before ++ x :: after).foldl (retuneSlot i number) s).voice v =
      (s.voice v).retarget (pitchValue s i number x.copy.tone) (s.station i).settings.glide := by
  obtain ⟨earlier, later⟩ := List.forall_mem_append.1 others
  rw [List.foldl_append, List.foldl_cons, voice_retuneSlots later, retuneSlot_of_voiced voiced,
    voice_updVoice_self, voice_retuneSlots earlier, retuneSlots_voices before s]
  rfl

theorem retune_of_none (h : s.note i = none) : retune s i = s := by rw [retune, h]

theorem retune_of_some {n : NoteRecord} (h : s.note i = some n) :
    retune s i = n.slots.foldl (retuneSlot i n.number) s := by rw [retune, h]

theorem pitchValue_eq {t : Tone} {p : Nat} (h : (p : Int) = max 0 (min 8191 ((number : Int) * 64 + t.transpose * 64
    + t.fine + (s.station i).settings.transpose * 64))) : pitchValue s i number t = p := by
  rw [← Int.natCast_inj, h, pitchValue, clampPitch_cast]

end Retune

/-! ### The glide -/

section Glide
variable {s : State} {x : Voice} {p rate : Nat} {again : Glide}

theorem retarget_of_base (h : p = x.base) : x.retarget p rate = { x with target := p, glide := .stopped } := if_pos h

theorem retarget_at_once (h : p ≠ x.base) (at_once : rate = 0) :
    x.retarget p rate = { x with base := p, target := p, glide := .stopped } := by
  rw [Voice.retarget, if_neg h, if_pos at_once]

theorem retarget_gliding (h : p ≠ x.base) (gliding : rate ≠ 0) : x.retarget p rate =
    { x with target := p, glide := if x.glide = .stopped then .running 48 else x.glide } := by
  rw [Voice.retarget, if_neg h, if_neg gliding]
  cases x.glide <;> rfl

/-- The distance left is not more than the rate, or the rate has become 0. -/
theorem glideStep_arrives
    (h : rate = 0 ∨ (x.target : Int) - x.base ≤ rate ∧ (x.base : Int) - x.target ≤ rate) :
    x.glideStep rate again = { x with base := x.target, glide := .stopped } :=
  if_pos (by omega)

theorem glideStep_up (gliding : rate ≠ 0) (far : x.base + rate < x.target) :
    x.glideStep rate again = { x with base := x.base + rate, glide := again } := by
  rw [Voice.glideStep]
  rw [if_neg (by omega), if_pos (by omega)]

theorem glideStep_down (gliding : rate ≠ 0) (far : x.target + rate < x.base) :
    x.glideStep rate again = { x with base := x.base - rate, glide := again } := by
  rw [Voice.glideStep]
  rw [if_neg (by omega), if_neg (by omega)]

theorem glideRate_of_station {i : StationId} (h : x.outStation = some i) :
    glideRate s x = (s.station i).settings.glide := by rw [glideRate, h]

theorem advanceGlide_of_last (h : x.glide = .running 1) :
    advanceGlide s x = x.glideStep (glideRate s x) (.running 48) := by
  rw [advanceGlide, h]
  exact if_pos (Nat.le_refl 1)

theorem advanceGlide_of_running {n : Nat} (more : 2 ≤ n) (h : x.glide = .running n) :
    advanceGlide s x = { x with glide := .running (n - 1) } := by
  rw [advanceGlide, h]
  exact if_neg (Nat.not_le.2 more)

theorem exec_glideStep_of_last {v : VoiceId} (sounding : (s.voice v).state = .sounding)
    (last : (s.voice v).glide = .running 1) : exec (.glideStep v) s =
      .next (s.updVoice v fun _ => (s.voice v).glideStep (glideRate s (s.voice v)) (.advanced 48)) := by
  have means : exec (.glideStep v) s = execGlideStep v s := rfl
  rw [means, execGlideStep, if_pos ⟨sounding, last⟩]
  rfl

end Glide

/-- Settles O52: a fold over the note's slots meets the slot VOICED with a voice once; the glide by its countdown. -/
theorem glideMovesTheBase : Obligations.GlideMovesTheBase := by
  unfold Obligations.GlideMovesTheBase
  refine ⟨fun s i => ⟨retune_of_none, fun n note => ⟨?only, fun v notVoiced => ?others,
      fun before after x v p slots voiced once pitch => ?voiced⟩⟩,
    fun x p rate => ⟨retarget_of_base, retarget_at_once, retarget_gliding⟩,
    fun s v idle => if_neg fun ⟨sounding, last⟩ => idle.elim (· sounding) (· last),
    fun s v i x rate hx sounding station hrate => ⟨fun h => ?stopped, fun n => advanceGlide_of_running,
      fun n h => ?advanced, fun last => ?last⟩⟩
  case only =>
    rw [retune_of_some note]
    exact retuneSlots_voices n.slots s
  case others =>
    rw [retune_of_some note]
    exact voice_retuneSlots notVoiced
  case voiced =>
    rw [retune_of_some note, slots, voice_retuneSlots_voiced voiced once, pitchValue_eq pitch]
  case stopped => rw [advanceGlide, h]
  case advanced => rw [advanceGlide, h]
  case last =>
    have advance := advanceGlide_of_last (s := s) last
    rw [glideRate_of_station station, ← hrate] at advance
    have step := exec_glideStep_of_last (s := s) (v := v) (hx ▸ sounding) (hx ▸ last)
    rw [← hx, glideRate_of_station station, ← hrate] at step
    refine ⟨fun arrives => ?_, fun gliding far => ?_, fun gliding far => ?_⟩
    · rw [advance, step, glideStep_arrives arrives, glideStep_arrives arrives]
      exact ⟨rfl, rfl⟩
    · rw [advance, step, glideStep_up gliding far, glideStep_up gliding far]
      exact ⟨rfl, rfl⟩
    · rw [advance, step, glideStep_down gliding far, glideStep_down gliding far]
      exact ⟨rfl, rfl⟩

end Sys2Proof.Machine
end

section
/-! The step of one voice (O50). -/

namespace Sys2Proof.Machine

/-! ### The pitch step -/

/-- Step 1 of R113 changes base pitch, glide, effective pitch and increment only. -/
theorem formPitch_eq (s : State) (x : Voice) : formPitch s (advanceGlide s x) =
    { x with
      base := (formPitch s (advanceGlide s x)).base
      glide := (formPitch s (advanceGlide s x)).glide
      eff := (formPitch s (advanceGlide s x)).eff
      inc := (formPitch s (advanceGlide s x)).inc } := by
  have formed : ∀ y : Voice, formPitch s y = { y with eff := (formPitch s y).eff, inc := (formPitch s y).inc } := by
    intro y
    unfold formPitch
    dsimp only
    split <;> rfl
  rw [formed, advanceGlide_eq]

/-- A voice of this record, with another base pitch, glide, effective pitch and increment. -/
def Repitched (x z : Voice) : Prop := z = { x with base := z.base, glide := z.glide, eff := z.eff, inc := z.inc }

theorem repitched_formPitch (s : State) (x : Voice) : Repitched x (formPitch s (advanceGlide s x)) := formPitch_eq s x

section Repitched
variable {x z : Voice}

theorem Repitched.state (h : Repitched x z) : z.state = x.state := by rw [h]

theorem Repitched.owner (h : Repitched x z) : z.owner = x.owner := by rw [h]

theorem Repitched.copy (h : Repitched x z) : z.copy = x.copy := by rw [h]

theorem Repitched.outStation (h : Repitched x z) : z.outStation = x.outStation := by rw [h]

theorem Repitched.phase (h : Repitched x z) : z.phase = x.phase := by rw [h]

theorem Repitched.amp (h : Repitched x z) : z.amp = x.amp := by rw [h]

theorem Repitched.completionDue (h : Repitched x z) : z.completionDue = x.completionDue := by rw [h]

end Repitched

section Pitch
variable {s : State} {v : VoiceId}

theorem voice_pitchStep (s : State) (v : VoiceId) :
    (pitchStep s v).voice v = formPitch s (advanceGlide s (s.voice v)) := voice_updVoice_self s v _

theorem pitchStep_eq (s : State) (v : VoiceId) :
    pitchStep s v = s.updVoice v fun _ => formPitch s (advanceGlide s (s.voice v)) := rfl

/-- A FREE or FAULTED voice is not stepped (R113). -/
theorem stepVoice_of_idle (idle : (s.voice v).state = .free ∨ (s.voice v).state = .faulted) (sums : Sums) :
    stepVoice (s, sums) v = (s, sums) := by
  unfold stepVoice
  rcases idle with is | is <;> rw [is]

/-- A voice in use reads and sounds after the pitch step (R113). -/
theorem stepVoice_of_used (used : (s.voice v).state = .sounding ∨ (s.voice v).state = .releasing
    ∨ (s.voice v).state = .draining) (sums : Sums) :
    stepVoice (s, sums) v = readAndSound v (pitchStep s v, sums) := by
  unfold stepVoice
  rcases used with is | is | is <;> rw [is]

end Pitch

/-! ### Reads -/

section Reads
variable {m : Memory} {c : LayerCopy} {phase : Word}

theorem readSample_of_good {a : Nat} (good : m.parityFailed a = false) : readSample m a = (m.sampleBits a).toInt :=
  if_neg (Bool.eq_false_iff.1 good)

/-- Where neither read fails, no wave is named. -/
theorem failedRead_of_good (goodA : m.parityFailed (readAddress c.waveA.region phase) = false)
    (goodB : ∀ b, c.waveB = some b → m.parityFailed (readAddress b.region phase) = false) :
    failedRead m c phase = none := by
  rw [failedRead, if_neg (Bool.eq_false_iff.1 goodA)]
  split
  · next b is => exact if_neg (Bool.eq_false_iff.1 (goodB b is))
  · rfl

theorem failedRead_of_failA (failed : m.parityFailed (readAddress c.waveA.region phase) = true) :
    failedRead m c phase = some (c.waveA.wave, readAddress c.waveA.region phase) := if_pos failed

theorem failedRead_of_failB (goodA : m.parityFailed (readAddress c.waveA.region phase) = false) {b : WaveCopy}
    (is : c.waveB = some b) (failed : m.parityFailed (readAddress b.region phase) = true) :
    failedRead m c phase = some (b.wave, readAddress b.region phase) := by
  rw [failedRead, if_neg (Bool.eq_false_iff.1 goodA), is]
  exact if_pos failed

theorem waveValue_of_single (is : c.waveB = none) (level : Nat) :
    waveValue m c phase level = readSample m (readAddress c.waveA.region phase) := by rw [waveValue, is]

theorem waveValue_of_blended {b : WaveCopy} (is : c.waveB = some b) (level : Nat) : waveValue m c phase level =
    (readSample m (readAddress c.waveA.region phase) * (1024 - (level : Int))
      + readSample m (readAddress b.region phase) * (level : Int)) / 1024 := by
  rw [waveValue, is]
  rfl

end Reads

/-! ### Sound -/

section Sound
variable {u : State} {v : VoiceId} {c : LayerCopy} {i : StationId}

theorem voiceFailure_of_copy (copy : (u.voice v).copy = some c) :
    voiceFailure u v = failedRead u.memory c (u.voice v).phase := by rw [voiceFailure, copy, Option.bind_some]

theorem levelFor_of_station {x : Voice} (station : x.outStation = some i) :
    levelFor u x = (u.station i).breath.level := by rw [levelFor, station]

/-- Steps 3 to 6 of R113 for a voice with a copy and an output station. -/
theorem soundVoice_eq (copy : (u.voice v).copy = some c) (station : (u.voice v).outStation = some i) (sums : Sums) :
    soundVoice v (u, sums) =
      (u.updVoice v (rampVoice u),
        sums.set i
          ⟨sums[i].left + (contribution (waveValue u.memory c (u.voice v).phase (u.station i).breath.level)
              (u.voice v).amp c.tone.pan).left,
            sums[i].right + (contribution (waveValue u.memory c (u.voice v).phase (u.station i).breath.level)
              (u.voice v).amp c.tone.pan).right⟩) := by
  rw [soundVoice]
  dsimp only
  rw [station, voiceOutput, copy]
  dsimp only
  rw [levelFor_of_station station]
  rfl

theorem targetOf_eq {x : Voice} (copy : x.copy = some c) (station : x.outStation = some i) :
    targetOf u x =
      if x.state = .sounding then (u.station i).breath.level * c.tone.level / 255 * 64 else 0 := by
  rw [targetOf, copy, levelFor_of_station station]
  cases x.state <;> rfl

theorem moveToward_eq (amp target step : Nat) : moveToward amp target step =
    if amp < target then min target (amp + step) else max target (amp - step) := rfl

/-- A completion is reported for a voice in use that is not SOUNDING at amplitude 0 (R116). -/
theorem completionDue_rampVoice {x : Voice}
    (used : x.state = .sounding ∨ x.state = .releasing ∨ x.state = .draining) :
    (rampVoice u x).completionDue = true ↔
      x.completionDue = true ∨ (x.state ≠ .sounding ∧ (rampVoice u x).amp = 0) := by
  have means : (rampVoice u x).completionDue =
    (x.completionDue || ((x.state == .releasing || x.state == .draining) && (rampVoice u x).amp == 0)) := rfl
  rw [means, Bool.or_eq_true, Bool.and_eq_true, beq_iff_eq]
  refine or_congr Iff.rfl (and_congr_left fun _ => ?_)
  rcases used with is | is | is <;> rw [is] <;> decide

end Sound

/-- Settles O50: after the pitch step no read fails, so the voice sounds. -/
theorem voicesAreStepped : Obligations.VoicesAreStepped := by
  unfold Obligations.VoicesAreStepped
  refine ⟨fun s sums v idle => stepVoice_of_idle idle sums,
    fun s sums v i x c addrA level target step w hx copy station used hA goodA hlevel value htarget hstep => ?_⟩
  let z := formPitch s (advanceGlide s x)
  have re : Repitched x z := repitched_formPitch s x
  have voice : (pitchStep s v).voice v = z := by rw [voice_pitchStep, ← hx]
  have copy' : ((pitchStep s v).voice v).copy = some c := by rw [voice, re.copy, copy]
  have station' : ((pitchStep s v).voice v).outStation = some i := by rw [voice, re.outStation, station]
  have addrA_eq : readAddress c.waveA.region z.phase = addrA := by rw [re.phase, hA, readAddress]
  have reads : failedRead s.memory c z.phase = none ∧ waveValue s.memory c z.phase level = w := by
    cases is : c.waveB with
    | none =>
      rw [is] at value
      refine ⟨failedRead_of_good (addrA_eq ▸ goodA) (by rw [is]; nofun), ?_⟩
      rw [waveValue_of_single is, addrA_eq, readSample_of_good goodA]
      exact value.symm
    | some b =>
      rw [is] at value
      obtain ⟨addrB, hB, goodB, hw⟩ := value
      have addrB_eq : readAddress b.region z.phase = addrB := by rw [re.phase, hB, readAddress]
      refine ⟨failedRead_of_good (addrA_eq ▸ goodA) fun d hd => ?_, ?_⟩
      · cases is.symm.trans hd
        exact addrB_eq ▸ goodB
      · rw [waveValue_of_blended is, addrA_eq, addrB_eq, readSample_of_good goodA, readSample_of_good goodB]
        exact hw.symm
  obtain ⟨noFailure, value⟩ := reads
  have failure : voiceFailure (pitchStep s v) v = none := by
    rw [voiceFailure_of_copy copy', voice]
    exact noFailure
  have target_eq : targetOf (pitchStep s v) z = target := by
    rw [targetOf_eq (re.copy.trans copy) (re.outStation.trans station), re.state, htarget, hlevel]
    rfl
  have step_eq : stepSize z = step := by
    rw [stepSize, re.state, re.copy, copy, hstep]
    rcases used with is | is | is <;> rw [is]
  have usedz : z.state = .sounding ∨ z.state = .releasing ∨ z.state = .draining := re.state ▸ used
  have due := completionDue_rampVoice (u := pitchStep s v) usedz
  rw [re.completionDue, re.state] at due
  have amp : (rampVoice (pitchStep s v) z).amp = moveToward x.amp target step := by
    rw [← target_eq, ← step_eq, ← re.amp]
    rfl
  refine ⟨rampVoice (pitchStep s v) z, z, pitchFormed_formPitch station, ?_, congrArg (· + z.inc) re.phase,
    target_eq, amp.trans (moveToward_eq _ _ _), due, rfl⟩
  rw [stepVoice_of_used (hx ▸ used), readAndSound, failure]
  refine (soundVoice_eq copy' station' sums).trans ?_
  rw [voice, re.amp]
  refine Prod.ext ?_ ?_
  · rw [pitchStep_eq, updVoice_updVoice, ← hx]
  · have level_eq : ((pitchStep s v).station i).breath.level = level := hlevel.symm
    have value' : waveValue (pitchStep s v).memory c z.phase level = w := value
    rw [level_eq, value']
    rfl

end Sys2Proof.Machine
end

section
/-! Wave parity errors (O51). -/

namespace Sys2Proof.Machine

/-! ### The pool at a parity error -/

/-- Voice v has this record and is bound to no claim. -/
def cutOff (s : State) (v : VoiceId) (y : Voice) : State :=
  { s.updVoice v (fun _ => y) with claims := s.claims.filter fun k => k.voice ≠ v }

section CutOff
variable {s : State} {v : VoiceId} {y : Voice} {faults : FaultCapture}

theorem unbind_pitchStep (s : State) (v : VoiceId) (f : Voice → Voice) :
    (unbind (pitchStep s v) v).updVoice v f = cutOff s v (f (formPitch s (advanceGlide s (s.voice v)))) := by
  have claims : (s.claims.filter fun c => c.voice != v) = s.claims.filter fun k => k.voice ≠ v := by
    congr 1
    funext c
    rw [bne, Bool.beq_eq_decide_eq, ← decide_not]
  have updated := updVoice_updVoice s v (fun x => formPitch s (advanceGlide s x)) f
  unfold unbind
  rw [cutOff, ← claims]
  exact congrArg (fun t : State => { t with claims := s.claims.filter fun c => c.voice != v }) updated

theorem voice_cutOff (s : State) (v : VoiceId) (y : Voice) (faults : FaultCapture) :
    ({ cutOff s v y with faults := faults } : State).voice v = y := voice_updVoice_self s v fun _ => y

theorem claimOf_cutOff (s : State) (v : VoiceId) (y : Voice) (faults : FaultCapture) :
    claimOf { cutOff s v y with faults := faults } v = none := by
  refine List.find?_eq_none.2 fun c member is => ?_
  have other := (List.mem_filter.1 member).2
  exact absurd (beq_iff_eq.1 is) (of_decide_eq_true other)

/-- The free list still holds FREE voices. -/
theorem free_cutOff (ok : PoolOk s) (used : (s.voice v).state ≠ .free) :
    ∀ w ∈ s.freeList, (({ cutOff s v y with faults := faults } : State).voice w).state = .free := by
  intro w member
  have free := (ok.2.1 w).1 member
  have other : w ≠ v := fun e => used (e ▸ free)
  have kept : ({ cutOff s v y with faults := faults } : State).voice w = s.voice w :=
    voice_updVoice_ne s v w (fun _ => y) other
  rw [kept, free]

/-- The claim made again leaves the voice that was cut off (R103, R104). -/
theorem untouched_reclaim (ok : PoolOk s) (used : (s.voice v).state ≠ .free)
    (held : y.state = .faulted ∨ y.state = .draining) (o : Option Owner) :
    (reclaim { cutOff s v y with faults := faults } o).voice v = y
      ∧ claimOf (reclaim { cutOff s v y with faults := faults } o) v = none := by
  cases o with
  | none => exact ⟨voice_cutOff s v y faults, claimOf_cutOff s v y faults⟩
  | some o =>
    obtain ⟨voice, claim⟩ := untouched_claimVoice o.station o.tag o.layer (free_cutOff (y := y) (faults := faults) ok used)
      (v := v) (by rwa [voice_cutOff s v y faults])
    exact ⟨voice.trans (voice_cutOff s v y faults), claim.trans (claimOf_cutOff s v y faults)⟩

theorem reclaim_eq (u : State) (o : Option Owner) : reclaim u o =
    match o with
    | some o => claimVoice u o.station o.tag o.layer
    | none => u := by cases o <;> rfl

end CutOff

section Owners
variable {s : State} {v : VoiceId}

/-- The pitch step leaves which owner a FAULTED voice keeps. -/
theorem keptOwner_pitchStep (s : State) (v : VoiceId) : keptOwner (pitchStep s v) v = keptOwner s v := by
  have re := repitched_formPitch s (s.voice v)
  unfold keptOwner
  rw [voice_pitchStep, re.state, re.owner]
  rfl

theorem slotLosing_pitchStep (s : State) (v : VoiceId) : slotLosing (pitchStep s v) v = slotLosing s v := by
  have re := repitched_formPitch s (s.voice v)
  unfold slotLosing
  rw [voice_pitchStep, re.state, re.owner]
  rfl

end Owners

theorem updVoice_of_voice {s : State} {v : VoiceId} {x : Voice} (is : s.voice v = x) (f : Voice → Voice) :
    s.updVoice v f = s.updVoice v fun _ => f x := by
  rw [← is]
  rfl

/-! ### The failed read -/

section Failure
variable {s : State} {v : VoiceId} {x z : Voice} {c : LayerCopy} {i : StationId}

/-- The first failing read, and the wave value with the failed samples as 0 (R114, R117). -/
theorem failedRead_spec {m : Memory} {phase : Word} {addrA level addr : Nat} {a w : Int} {wave : WaveId}
    (hA : addrA = readAddress c.waveA.region phase) (ha : a = readSample m addrA)
    (failed : match c.waveB with
      | none => w = a ∧ wave = c.waveA.wave ∧ addr = addrA ∧ m.parityFailed addrA = true
      | some b => ∃ addrB bb, addrB = readAddress b.region phase ∧ bb = readSample m addrB
          ∧ w = (a * (1024 - (level : Int)) + bb * (level : Int)) / 1024
          ∧ ((m.parityFailed addrA = true ∧ wave = c.waveA.wave ∧ addr = addrA)
            ∨ (m.parityFailed addrA = false ∧ m.parityFailed addrB = true ∧ wave = b.wave ∧ addr = addrB))) :
    failedRead m c phase = some (wave, addr) ∧ waveValue m c phase level = w := by
  cases is : c.waveB with
  | none =>
    rw [is] at failed
    obtain ⟨rfl, rfl, rfl, fails⟩ := failed
    rw [hA] at fails
    exact ⟨hA ▸ failedRead_of_failA fails, by rw [waveValue_of_single is, ha, hA]⟩
  | some b =>
    rw [is] at failed
    obtain ⟨addrB, bb, hB, hbb, hw, which⟩ := failed
    refine ⟨?_, by rw [waveValue_of_blended is, hw, ha, hbb, hA, hB]⟩
    rcases which with ⟨fails, rfl, rfl⟩ | ⟨good, fails, rfl, rfl⟩
    · rw [hA] at fails
      exact hA ▸ failedRead_of_failA fails
    · rw [hA] at good
      rw [hB] at fails
      exact hB ▸ failedRead_of_failB good is fails

theorem readAndSound_of_enabled {u : State} {at_ : WaveId × Nat} (failure : voiceFailure u v = some at_)
    (on : u.faults.enable.getLsbD 6 = true) (sums : Sums) :
    readAndSound v (u, sums) = (faultVoice (reportParity u v at_) v, sums) := by
  unfold readAndSound
  rw [failure]
  exact if_pos on

theorem readAndSound_of_disabled {u : State} {at_ : WaveId × Nat} (failure : voiceFailure u v = some at_)
    (off : u.faults.enable.getLsbD 6 = false) (sums : Sums) :
    readAndSound v (u, sums) = soundVoice v (orphanVoice u v, sums) := by
  have silent : reportParity u v at_ = u := report_of_disabled (k := .waveParity) _ _ _ _ off
  unfold readAndSound
  rw [failure]
  dsimp only
  rw [silent]
  exact if_neg (Bool.eq_false_iff.1 off)

/-- A reported voice becomes FAULTED and its slot claims again (R103). -/
theorem faultVoice_reportParity (s : State) (v : VoiceId) (at_ : WaveId × Nat) :
    faultVoice (reportParity (pitchStep s v) v at_) v =
      reclaim
        { cutOff s v { formPitch s (advanceGlide s (s.voice v)) with
            state := .faulted, owner := keptOwner s v, completionDue := false } with
          faults := s.faults.take ⟨.waveParity, (s.voice v).outStation, some v, (keptOwner s v).map Owner.tag,
            BitVec.ofNat 32 (at_.2 + at_.1.val * 65536), s.timebase⟩ }
        (slotLosing s v) := by
  have re := repitched_formPitch s (s.voice v)
  have held := unbind_pitchStep s v fun x =>
    { x with state := .faulted, owner := keptOwner s v, completionDue := false }
  have record : reportParity (pitchStep s v) v at_ =
      { pitchStep s v with
        faults := s.faults.take ⟨.waveParity, (s.voice v).outStation, some v, (keptOwner s v).map Owner.tag,
          BitVec.ofNat 32 (at_.2 + at_.1.val * 65536), s.timebase⟩ } := by
    unfold reportParity
    rw [keptOwner_pitchStep, voice_pitchStep, re.outStation]
    rfl
  have kept : keptOwner (reportParity (pitchStep s v) v at_) v = keptOwner s v := keptOwner_pitchStep s v
  have losing : slotLosing (reportParity (pitchStep s v) v at_) v = slotLosing s v := slotLosing_pitchStep s v
  unfold faultVoice
  rw [kept, losing, record, ← held]
  rfl

theorem orphanVoice_pitchStep (s : State) (v : VoiceId) : orphanVoice (pitchStep s v) v =
    reclaim (cutOff s v (formPitch s (advanceGlide s (s.voice v))).toDrain) (slotLosing s v) := by
  unfold orphanVoice
  rw [slotLosing_pitchStep, unbind_pitchStep]

end Failure

/-- Settles O51: the voice is cut off from its claim, and the claim made again leaves it. -/
theorem parityErrorsHoldTheVoice : Obligations.ParityErrorsHoldTheVoice := by
  unfold Obligations.ParityErrorsHoldTheVoice
  intro s sums v i x c addrA level a w wave addr losing kept ok hx copy station used hA hlevel ha failed hlosing hkept
  let z := formPitch s (advanceGlide s x)
  have re : Repitched x z := repitched_formPitch s x
  have formed : PitchFormed s x z i := pitchFormed_formPitch station
  have voice : (pitchStep s v).voice v = z := by rw [voice_pitchStep, ← hx]
  have notFree : (s.voice v).state ≠ .free := by
    rw [← hx]
    rcases used with is | is | is <;> rw [is] <;> decide
  have losing_eq : slotLosing s v = losing := by
    rw [slotLosing, hlosing, ← hx]
    rcases used with is | is | is <;> rw [is] <;> rfl
  have kept_eq : keptOwner s v = kept := by
    rw [keptOwner, hkept, ← hx]
    rcases used with is | is | is <;> rw [is] <;> rfl
  obtain ⟨failure, value⟩ := failedRead_spec (phase := x.phase) hA ha failed
  have fails : voiceFailure (pitchStep s v) v = some (wave, addr) := by
    rw [voiceFailure_of_copy (c := c) (by rw [voice, re.copy, copy]), voice, re.phase]
    exact failure
  have step := stepVoice_of_used (hx ▸ used) sums
  refine ⟨fun on => ?enabled, fun off => ?disabled⟩
  case enabled =>
    rw [readAndSound_of_enabled fails on, faultVoice_reportParity, ← hx, station, kept_eq, losing_eq] at step
    obtain ⟨same, unbound⟩ := untouched_reclaim (y := { z with state := .faulted, owner := kept, completionDue := false })
      (faults := s.faults.take ⟨.waveParity, some i, some v, kept.map Owner.tag,
        BitVec.ofNat 32 (addr + wave.val * 65536), s.timebase⟩) ok notFree (.inl rfl) losing
    refine ⟨_, _, z, step, formed, rfl, reclaim_eq _ losing, ?_, ?_, ?_, ?_, ?_, unbound⟩
    · exact congrArg Voice.state same
    · exact (congrArg Voice.copy same).trans (re.copy.trans copy)
    · exact (congrArg Voice.amp same).trans re.amp
    · exact (congrArg Voice.phase same).trans re.phase
    · exact congrArg Voice.owner same
  case disabled =>
    rw [readAndSound_of_disabled fails off, orphanVoice_pitchStep, ← hx, losing_eq] at step
    let t := reclaim (cutOff s v z.toDrain) losing
    obtain ⟨same, unbound⟩ : t.voice v = z.toDrain ∧ claimOf t v = none :=
      untouched_reclaim (faults := s.faults) ok notFree (.inr rfl) losing
    have frame : AllocatorFrame (cutOff s v z.toDrain) t := allocatorFrame_reclaim _ losing
    have drained : z.toDrain = { z with
        state := .draining, owner := none, target := z.base, glide := .stopped
        completionDue := x.state == .draining && x.completionDue } := by
      rw [Voice.toDrain, re.state, re.completionDue]
    have copy' : (t.voice v).copy = some c := same ▸ re.copy.trans copy
    have station' : (t.voice v).outStation = some i := same ▸ re.outStation.trans station
    have due := completionDue_rampVoice (u := t) (x := z.toDrain) (.inr (.inr rfl))
    refine ⟨t, cutOff s v z.toDrain, rampVoice t z.toDrain, z, formed, ?_, by rw [cutOff, drained],
      reclaim_eq _ losing, due.trans ?_, ?_, unbound⟩
    · refine step.trans ((soundVoice_eq copy' station' sums).trans ?_)
      have memory : t.memory = s.memory := frame.1.2.2.2
      have breath : (t.station i).breath = (s.station i).breath := (frame.sameStation i).breath
      have value' : waveValue t.memory c z.toDrain.phase (t.station i).breath.level = w := by
        rw [memory, breath, ← hlevel, ← value, ← re.phase]
        rfl
      rw [same, value', updVoice_of_voice same, ← re.amp]
      rfl
    · refine or_congr ?_ ⟨fun h => h.2, fun h => ⟨nofun, h⟩⟩
      rw [drained, Bool.and_eq_true, beq_iff_eq]
    · have amp : (rampVoice t z.toDrain).amp = x.amp - 1024 := by
        have moved : (rampVoice t z.toDrain).amp = moveToward z.amp 0 1024 := rfl
        rw [moved, re.amp, moveToward, if_neg (Nat.not_lt_zero _), Nat.zero_max]
      rw [← amp, ← re.phase]
      rfl

end Sys2Proof.Machine
end

section
/-! The sample period (O48). -/

namespace Sys2Proof.Machine

/-! ### Clip states and clip reports -/

/-- Nothing but the clip states and the fault capture has changed, and of the capture not its policy. -/
def ClipFrame (s t : State) : Prop :=
  t = { s with audio := { s.audio with clip := t.audio.clip }, faults := t.faults }
    ∧ t.faults.enable = s.faults.enable ∧ t.faults.mask = s.faults.mask

section Clips
variable {s t u : State} {sums : Sums}

theorem ClipFrame.trans (h : ClipFrame s t) (k : ClipFrame t u) : ClipFrame s u := by
  obtain ⟨same, enable, mask⟩ := h
  obtain ⟨same', enable', mask'⟩ := k
  refine ⟨?_, enable'.trans enable, mask'.trans mask⟩
  rw [same', same]

theorem clipFrame_clipStation (sums : Sums) (s : State) (i : StationId) : ClipFrame s (clipStation sums s i) := by
  unfold clipStation
  dsimp only
  split
  · exact ⟨rfl, enable_take _ _, mask_take _ _⟩
  · exact ⟨rfl, rfl, rfl⟩

theorem clipFrame_clips (sums : Sums) (l : List StationId) (s : State) : ClipFrame s (l.foldl (clipStation sums) s) := by
  induction l generalizing s with
  | nil => exact ⟨rfl, rfl, rfl⟩
  | cons i l ih => exact (clipFrame_clipStation sums s i).trans (ih _)

theorem clip_clipStation (sums : Sums) (s : State) (i j : StationId) : (clipStation sums s i).audio.clip[j] =
    if j = i then clipDetail s i sums[i] != 0 else s.audio.clip[j] := by
  rw [audio_clipStation]
  dsimp only
  rw [Fin.getElem_fin, Vector.getElem_set]
  simp only [Fin.val_inj, eq_comm (a := i)]
  rfl

theorem clip_clips_of_notMem {j : StationId} {l : List StationId} (h : j ∉ l) (s : State) :
    (l.foldl (clipStation sums) s).audio.clip[j] = s.audio.clip[j] := by
  induction l generalizing s with
  | nil => rfl
  | cons i l ih =>
    obtain ⟨other, rest⟩ := List.ne_and_not_mem_of_not_mem_cons h
    rw [List.foldl_cons, ih rest, clip_clipStation, if_neg other]

/-- The clip state of a station records whether the period has saturated it. -/
theorem clip_clips_of_mem {j : StationId} {l : List StationId} (h : j ∈ l) (s : State) :
    (l.foldl (clipStation sums) s).audio.clip[j] = (clipDetail s j sums[j] != 0) := by
  induction l generalizing s with
  | nil => cases h
  | cons i l ih =>
    rw [List.foldl_cons]
    by_cases later : j ∈ l
    · have detail : clipDetail (clipStation sums s i) j sums[j] = clipDetail s j sums[j] := by
        have station : (clipStation sums s i).station j = s.station j :=
          congrArg (fun x : Vector Station 4 => x[j]) (stations_clips sums [i] s)
        rw [clipDetail, clipDetail, station]
      rw [ih later, detail]
    · obtain rfl : j = i := (List.mem_cons.1 h).resolve_right later
      rw [clip_clips_of_notMem later, clip_clipStation, if_pos rfl]

end Clips

/-! ### Outputs and the frame -/

theorem limitOutput_bounds (x : Int) (g : Nat) : -8388607 ≤ limitOutput x g ∧ limitOutput x g ≤ 8388607 := by
  rw [limitOutput_eq]
  omega

theorem stationOutput_of_disabled {s : State} {i : StationId} (off : (s.station i).state = .disabled) (p : Pair) :
    stationOutput s i p = ⟨0, 0⟩ := if_pos off

theorem stationOutput_bounds (s : State) (i : StationId) (p : Pair) :
    (-8388607 ≤ (stationOutput s i p).left ∧ (stationOutput s i p).left ≤ 8388607)
      ∧ (-8388607 ≤ (stationOutput s i p).right ∧ (stationOutput s i p).right ≤ 8388607) := by
  unfold stationOutput
  split
  · exact ⟨⟨by decide, by decide⟩, by decide, by decide⟩
  · exact ⟨limitOutput_bounds _ _, limitOutput_bounds _ _⟩

/-- The sample stands in the first 24 bits of its slot, zeros behind it. -/
theorem slotWord_eq (x : Int) : slotWord x = BitVec.ofInt 24 x ++ (0 : BitVec 8) := by
  refine BitVec.eq_of_getLsbD_eq fun k hk => ?_
  simp only [slotWord, BitVec.getLsbD_shiftLeft, BitVec.getLsbD_append, BitVec.truncate_eq_setWidth,
    BitVec.getLsbD_setWidth]
  by_cases low : k < 8
  · simp [low]
  · simp [low, hk]
    omega

theorem slotsFor_spec (outputs : Vector Pair 4) (i : StationId) :
    (slotsFor outputs)[2 * i.val] = BitVec.ofInt 24 outputs[i].left ++ (0 : BitVec 8)
      ∧ (slotsFor outputs)[2 * i.val + 1] = BitVec.ofInt 24 outputs[i].right ++ (0 : BitVec 8) := by
  rw [← slotWord_eq, ← slotWord_eq]
  rcases station_cases i with rfl | rfl | rfl | rfl <;> exact ⟨rfl, rfl⟩

/-- Each slot of the frame is sent most significant bit first (R120). -/
theorem tdataBit_slot (frame : Vector Word 8) (slot : Fin 8) {k : Nat} (bit : k < 32) :
    tdataBit frame (32 * slot.val + k) = frame[slot].getLsbD (31 - k) := by
  have at_ : (32 * slot.val + k) / 32 = slot.val := by omega
  have place : (32 * slot.val + k) % 32 = k := by omega
  have word : frame.toList.getD slot.val 0 = frame[slot] := by
    rw [List.getD_eq_getElem?_getD, List.getElem?_eq_getElem (by simp)]
    simp
  rw [tdataBit, at_, place, word, BitVec.getMsbD_eq_getLsbD, decide_eq_true bit, Bool.true_and]

theorem frameNow_of_held {s : State} (h : s.rstAsserted = true ∨ s.clearRunning = true) :
    frameNow s = Vector.replicate 8 0 := if_pos (by rwa [Bool.or_eq_true])

theorem frameNow_of_running {s : State} (rst : s.rstAsserted = false) (clear : s.clearRunning = false) :
    frameNow s = slotsFor s.audio.outputs := by rw [frameNow, rst, clear]; rfl

/-- Settles O48: the renderer keeps the allocator's frame, and after the outputs only clip states and reports follow. -/
theorem samplePeriodAdvancesTheClocks : Obligations.SamplePeriodAdvancesTheClocks := by
  unfold Obligations.SamplePeriodAdvancesTheClocks
  intro s voices stations
  let r := renderVoices voices (tickClocks s)
  let t := samplePeriod voices stations s
  have rendered : AllocatorFrame (tickClocks s) r.1 := allocatorFrame_renderVoices voices (tickClocks s)
  have clips : ClipFrame (audioStep r.1 r.2) t := clipFrame_clips r.2 (inOrder stations allStations) _
  have rendered' := rendered
  obtain ⟨⟨charts, templates, waves, memory⟩, ⟨pending, timebase, clear, rst, audio, port, draws⟩, -, tag, enable, mask⟩ :=
    rendered'
  obtain ⟨same, enable', mask'⟩ := clips
  have frame : t.audio.frame = frameNow r.1 := by rw [same]; rfl
  have outputs (i : StationId) : t.audio.outputs[i] = stationOutput r.1 i r.2[i] := by
    rw [same]
    exact Vector.getElem_ofFn _
  have disabled {i : StationId} (off : (s.station i).state = .disabled) : (r.1.station i).state = .disabled := by
    have ticked : ((tickClocks s).station i).state = (s.station i).state :=
      (congrArg Station.state (ticked_tickClocks s i).1).trans rfl
    exact (rendered.sameStation i).state.trans (ticked.trans off)
  refine ⟨t, rfl, ?_, ?_, ?_, ?_, ⟨enable'.trans enable, mask'.trans mask⟩,
    ⟨tickClocks s, r, inOrder voices allVoices, inOrder stations allStations, ⟨rfl, ticked_tickClocks s⟩,
      ⟨nodup_inOrder voices (List.nodup_finRange 32), fun v => mem_inOrder voices (List.mem_finRange v),
        fun nodup => prefix_inOrder nodup _⟩,
      ⟨nodup_inOrder stations nodup_allStations, fun i => mem_inOrder stations (mem_allStations i),
        fun nodup => prefix_inOrder nodup _⟩, rfl, ?_, outputs, sameStation_samplePeriod voices stations s⟩,
    fun i => ?_, fun held => ?_, fun noReset noClear i => ?_,
    ⟨?_, fun u => beq_iff_eq⟩, fun u => rfl, fun frame slot k => tdataBit_slot frame slot⟩
  · rw [same]; exact timebase
  · rw [same]; exact ⟨charts, templates, waves, memory⟩
  · rw [same]; exact tag
  · rw [same]; exact ⟨pending, clear, rst, port, draws⟩
  · have ended : audioStep r.1 r.2 = { r.1 with
        audio :=
          { clip := s.audio.clip
            outputs := Vector.ofFn fun i => stationOutput r.1 i r.2[i]
            frame := t.audio.frame
            position := 0 } } := by
      rw [audioStep, audio, frame]
      rfl
    exact congrArg (fun u => (inOrder stations allStations).foldl (clipStation r.2) u) ended
  · obtain ⟨left, right⟩ := stationOutput_bounds r.1 i r.2[i]
    rw [outputs]
    refine ⟨left, right, fun off => ⟨stationOutput_of_disabled (disabled off) _, ?_⟩⟩
    have detail : clipDetail (audioStep r.1 r.2) i r.2[i] = 0 := if_pos (disabled off)
    have clip : t.audio.clip[i] = (clipDetail (audioStep r.1 r.2) i r.2[i] != 0) :=
      clip_clips_of_mem (mem_inOrder stations (mem_allStations i)) _
    rw [clip, detail]
    rfl
  · rw [frame, frameNow_of_held (by rwa [rst, clear])]
  · have sent : t.audio.frame = slotsFor s.audio.outputs := by
      rw [frame, frameNow_of_running (rst.trans noReset) (clear.trans noClear), audio]
      rfl
    simp only [sent]
    exact slotsFor_spec s.audio.outputs i
  · rw [same]; rfl

end Sys2Proof.Machine
end

section
/-! The stations' counts as the view of the pool gives them (R82), and the first part of O57. -/

namespace Sys2Proof.Machine

/-- Voice v counts to station i: it sounds or is released for it, or drains bound to its claim (R82). -/
def PoolView.Counts (V : PoolView) (i : StationId) (v : VoiceId) : Prop :=
  ((V.state v = .sounding ∨ V.state v = .releasing) ∧ ∃ o, V.owner v = some o ∧ o.station = i)
    ∨ (V.state v = .draining ∧ ∃ c ∈ V.claims, c.voice = v ∧ c.station = i)

section Counts
variable {s t : State} {i : StationId} {v : VoiceId}

theorem countsTo_iff_counts (ok : PoolOk s) (i : StationId) (v : VoiceId) :
    countsTo s i v = true ↔ (view s).Counts i v := by
  have bound : (∃ c, claimOf s v = some c ∧ c.station = i) ↔ ∃ c ∈ s.claims, c.voice = v ∧ c.station = i := by
    simp only [claimOf_eq_some_iff ok, and_assoc]
  rw [countsTo_iff, bound, ← or_assoc]
  refine or_congr ?_ Iff.rfl
  rw [OwnedIn, OwnedIn, ← or_and_right]
  rfl

/-- The voices that count to a station, each once. -/
theorem stationCount_eq_length (s : State) (i : StationId) :
    stationCount s i = (allVoices.filter (countsTo s i)).length := List.countP_eq_length_filter

theorem stationCount_le_of_counts (ok : PoolOk s) (ok' : PoolOk t)
    (fewer : ∀ w, (view t).Counts i w → (view s).Counts i w) : stationCount t i ≤ stationCount s i :=
  List.countP_mono_left fun w _ counts => (countsTo_iff_counts ok i w).2 (fewer w ((countsTo_iff_counts ok' i w).1 counts))

/-- One voice more counts at most one more. -/
theorem stationCount_le_succ_of_counts (ok : PoolOk s) (ok' : PoolOk t)
    (fewer : ∀ w, w ≠ v → (view t).Counts i w → (view s).Counts i w) : stationCount t i ≤ stationCount s i + 1 := by
  have others : (allVoices.filter (· ≠ v)).countP (countsTo t i) ≤ stationCount s i := by
    refine Nat.le_trans (List.countP_mono_left fun w member counts => ?_) (List.filter_sublist.countP_le (p := countsTo s i))
    have other : w ≠ v := of_decide_eq_true (List.mem_filter.1 member).2
    exact (countsTo_iff_counts ok i w).2 (fewer w other ((countsTo_iff_counts ok' i w).1 counts))
  have self : (allVoices.filter fun w => !decide (w ≠ v)).countP (countsTo t i) ≤ 1 := by
    have once : allVoices.count v ≤ 1 := List.nodup_iff_count.1 (List.nodup_finRange 32) v
    refine Nat.le_trans List.countP_le_length (Nat.le_trans (Nat.le_of_eq ?_) once)
    rw [List.count, List.countP_eq_length_filter]
    congr 2
    funext w
    simp only [Bool.beq_eq_decide_eq, ne_eq, decide_not, Bool.not_not]
  have split := List.countP_eq_countP_filter_add allVoices (countsTo t i) fun w => decide (w ≠ v)
  rw [stationCount, split]
  exact Nat.add_le_add others self

end Counts

/-! ### Moves of the pool -/

namespace PoolView
variable {V W U : PoolView} {room : StationId → Prop} {v : VoiceId} {k : Owner}

/-- No station counts a voice more, but one with room for it. -/
def Within (room : StationId → Prop) (V W : PoolView) : Prop :=
  ∀ j, (∀ w, W.Counts j w → V.Counts j w) ∨ (room j ∧ ∃ v, ∀ w, w ≠ v → W.Counts j w → V.Counts j w)

/-- What an operation of the allocator does to the rules on the pool's lists, slots and counts (R81, R82, R90, R93). -/
structure Moves (room : StationId → Prop) (V W : PoolView) : Prop where
  lists : V.ListsOk → W.ListsOk
  slots : V.ListsOk → V.Listed → W.Listed
  counts : V.ListsOk → Within room V W

theorem Within.of_fewer (fewer : ∀ j w, W.Counts j w → V.Counts j w) : Within room V W := fun j => .inl (fewer j)

theorem Moves.refl : Moves room V V := ⟨id, fun _ => id, fun _ => .of_fewer fun _ _ => id⟩

/-- A voice counts by its own state and owner and the claims that name it. -/
theorem Counts.congr {j : StationId} {w : VoiceId} (h : W.Counts j w) (state : W.state w = V.state w)
    (owner : W.owner w = V.owner w) (claims : ∀ c ∈ W.claims, c.voice = w → c ∈ V.claims) : V.Counts j w := by
  rcases h with ⟨sounds, owned⟩ | ⟨drains, c, member, voice, own⟩
  · exact .inl ⟨by rwa [← state], by rwa [← owner]⟩
  · exact .inr ⟨by rwa [← state], c, claims c member voice, voice, own⟩

end PoolView

end Sys2Proof.Machine
end

section
/-! A claim (R85 to R89) on the view of the pool: whichever way it is served, the lists stay sound, the claimant slot
gets its state with the item that goes with it, and only its station can count a voice more. -/

namespace Sys2Proof.Machine

namespace PoolView
variable {V W : PoolView} {room : StationId → Prop} {v w : VoiceId} {k o : Owner} {j : StationId}

/-! ### Counts through the operations -/

theorem counts_setVoice_other {x : VoiceState} {p : Option Owner} (other : w ≠ v) (h : (V.setVoice v x p).Counts j w) :
    V.Counts j w := h.congr (if_neg other) (if_neg other) fun _ member _ => member

/-- A voice that drains after it was in use counts to no station more than before. -/
theorem counts_drained (ok : V.ListsOk) (was : V.state v ≠ .draining) (h : (V.setVoice v .draining none).Counts j w) :
    V.Counts j w := by
  by_cases same : w = v
  · subst same
    rcases h with ⟨-, p, owner, -⟩ | ⟨-, c, member, voice, -⟩
    · cases (if_pos rfl : (V.setVoice w .draining none).owner w = none).symm.trans owner
    · exact absurd voice (ok.unclaimed was c member)
  · exact counts_setVoice_other same h

theorem counts_give_other (other : w ≠ v) (h : (V.give v k).Counts j w) : V.Counts j w :=
  counts_setVoice_other (x := .sounding) (p := some k) other h

/-- A voice given to a slot counts to the slot's station. -/
theorem station_of_counts_give (h : (V.give v k).Counts j v) : j = k.station := by
  have state : (V.give v k).state v = .sounding := if_pos rfl
  have owner : (V.give v k).owner v = some k := if_pos rfl
  rcases h with ⟨-, p, is, own⟩ | ⟨drains, -⟩
  · cases owner.symm.trans is
    exact own.symm
  · cases state.symm.trans drains

theorem counts_bind_other (other : w ≠ v) (h : (V.bind v k).Counts j w) : V.Counts j w := by
  refine h.congr (if_neg other) (if_neg other) fun c member voice => ?_
  rcases List.mem_append.1 member with old | new
  · exact old
  · cases List.mem_singleton.1 new
    exact absurd voice.symm other

/-- A voice bound to a claim counts to the claim's station. -/
theorem station_of_counts_bind (ok : V.ListsOk) (was : V.state v ≠ .draining) (h : (V.bind v k).Counts j v) :
    j = k.station := by
  have owner : (V.bind v k).owner v = none := if_pos rfl
  rcases h with ⟨-, p, is, -⟩ | ⟨-, c, member, voice, own⟩
  · cases owner.symm.trans is
  · rcases List.mem_append.1 member with old | new
    · exact absurd voice (ok.unclaimed was c old)
    · cases List.mem_singleton.1 new
      exact own.symm

/-- A voice not SOUNDING and unclaimed, or new to the pool's use, given to a slot of a station with room. -/
theorem within_give (may : room k.station) : Within room V (V.give v k) := fun j => by
  by_cases same : j = k.station
  · exact .inr ⟨same ▸ may, v, fun w other => counts_give_other other⟩
  · refine .inl fun w counts => ?_
    by_cases self : w = v
    · exact absurd (station_of_counts_give (self ▸ counts)) same
    · exact counts_give_other self counts

/-- A voice bound to a claim of a station with room, or of its own station. -/
theorem within_bind (ok : V.ListsOk) (was : V.state v ≠ .draining) (may : room k.station ∨ V.Counts k.station v) :
    Within room V (V.bind v k) := fun j => by
  by_cases same : j = k.station
  · subst same
    rcases may with may | counted
    · exact .inr ⟨may, v, fun w other => counts_bind_other other⟩
    · refine .inl fun w counts => ?_
      by_cases self : w = v
      · exact self ▸ counted
      · exact counts_bind_other self counts
  · refine .inl fun w counts => ?_
    by_cases self : w = v
    · exact absurd (station_of_counts_bind ok was (self ▸ counts)) same
    · exact counts_bind_other self counts

/-! ### The ways a claim is served -/

/-- How a claim of the slot k is served, `may` saying that its station is below its cap. -/
inductive Served (V : PoolView) (k : Owner) (may : Prop) : PoolView → Prop
  | free {v : VoiceId} {rest : List VoiceId} (list : V.free = v :: rest) (below : may) :
      Served V k may (({ V with free := rest } : PoolView).give v k)
  | released {v : VoiceId} {o : Owner} (state : V.state v = .releasing) (owner : V.owner v = some o)
      (allowed : may ∨ o.station = k.station) : Served V k may (V.bind v k)
  | stolen {v : VoiceId} {o : Owner} (state : V.state v = .sounding) (owner : V.owner v = some o) (other : o ≠ k)
      (allowed : may ∨ o.station = k.station) : Served V k may ((V.starveSlot o).bind v k)
  | starved : Served V k may (V.starveSlot k)

theorem Served.lists {may : Prop} (h : Served V k may W) (ok : V.ListsOk) : W.ListsOk := by
  cases h with
  | free list => exact ok.take list k
  | released state => exact ok.bind (by rw [state]; decide) (by rw [state]; decide) k
  | stolen state => exact (ok.starveSlot _).bind (by rw [starveSlot, setSlot, state]; decide) (by rw [starveSlot, setSlot, state]; decide) k
  | starved => exact ok.starveSlot k

theorem Served.within (h : Served V k (room k.station) W) (ok : V.ListsOk) : Within room V W := by
  cases h with
  | free list below => exact within_give (V := { V with free := _ }) below
  | released state owner allowed =>
    exact within_bind ok (by rw [state]; decide) (allowed.imp_right fun own => .inl ⟨.inr state, _, owner, own⟩)
  | @stolen _ o state owner _ allowed =>
    exact within_bind (ok.starveSlot o) (fun is => by cases state.symm.trans is)
      (allowed.imp_right fun own => .inl ⟨.inl state, o, owner, own⟩)
  | starved => exact .of_fewer fun _ _ => id

/-- The victim's slot loses its voice before it starves. -/
theorem bind_starveSlot (V : PoolView) (v : VoiceId) (o k : Owner) :
    (V.starveSlot o).bind v k = ((V.setVoice v .draining none).starveSlot o).bind v k := by
  refine PoolView.ext ?_ ?_ rfl rfl rfl rfl rfl
  · funext w
    by_cases same : w = v
    · exact (if_pos same).trans (if_pos same).symm
    · exact (if_neg same).trans ((if_neg same).trans (if_neg same)).symm
  · funext w
    by_cases same : w = v
    · exact (if_pos same).trans (if_pos same).symm
    · exact (if_neg same).trans ((if_neg same).trans (if_neg same)).symm

/-- The claimant slot, without items before, goes with its item once its claim is served. -/
theorem Served.listed {may : Prop} (h : Served V k may W) (ok : V.ListsOk) (slots : V.ListedBut fun j => False ∨ j = k)
    (present : V.slot k ≠ none) : W.Listed := by
  cases h with
  | free list =>
    have isFree := (ok.free _).1 (list ▸ List.mem_cons_self)
    exact (slots.setFree _).give id present (by rw [isFree]; decide)
  | released state => exact slots.bind id present (by rw [state]; decide)
  | @stolen v o state owner other =>
    have outside : ¬ (False ∨ o = k) := fun h => h.elim id other
    have voiced : V.slot o = some (.voiced v) := ((slots.others o outside).voiced v).1 ⟨state, owner⟩
    have silenced := slots.silence outside voiced (x := .draining) nofun none
    rw [bind_starveSlot]
    refine (silenced.starveSlot outside ?_).bind id ?_ ?_
    · rw [setVoice, voiced]
      nofun
    · rw [starveSlot]
      exact fun gone => present ((slot_setSlot _ o k _ other.symm).symm.trans gone)
    · have drains : ((V.setVoice v .draining none).starveSlot o).state v = .draining := if_pos rfl
      rw [drains]
      decide
  | starved => exact slots.starveSlot id present

end PoolView

/-! ### The model's claim -/

section Claim
variable {s : State} {i : StationId} {tag : Nat} {layer : LayerId} {v : VoiceId}

/-- A victim is owned by the claimant's own station, or that station is below its cap (R85, R87). -/
theorem VictimOf.allowed {o : Owner} (h : VictimOf s i tag layer v) (owner : (s.voice v).owner = some o) :
    stationCount s i < (s.station i).settings.cap ∨ o.station = i := by
  rcases h with ⟨⟨-, p, is, own⟩, -⟩ | ⟨-, below, -⟩ | ⟨-, -, ⟨-, p, is, own, -⟩, -⟩ | ⟨-, below, -⟩
  · cases owner.symm.trans is
    exact .inr own
  · exact .inl below
  · cases owner.symm.trans is
    exact .inr own
  · exact .inl below

theorem VictimOf.owned (h : VictimOf s i tag layer v) : ∃ o, (s.voice v).owner = some o := by
  rcases h with ⟨⟨-, o, is, -⟩, -⟩ | ⟨-, -, ⟨-, o, is, -⟩, -⟩ | ⟨-, -, ⟨-, o, is, -⟩, -⟩ | ⟨-, -, -, -, ⟨-, -, o, is, -⟩, -⟩
  all_goals exact ⟨o, is⟩

theorem served_claimVoice (s : State) (i : StationId) (tag : Nat) (layer : LayerId) :
    (view s).Served ⟨i, tag, layer⟩ (stationCount s i < (s.station i).settings.cap) (view (claimVoice s i tag layer)) := by
  by_cases served : ∃ v rest, s.freeList = v :: rest ∧ PassesFreeTest s i s.freeList.length
  · obtain ⟨v, rest, list, passes⟩ := served
    rw [claimVoice_of_free list passes, view_giveVoice]
    exact .free list passes.1
  have none : s.freeList = [] ∨ ¬ PassesFreeTest s i s.freeList.length := by
    cases list : s.freeList with
    | nil => exact .inl rfl
    | cons v rest => exact .inr fun passes => served ⟨v, rest, list, list ▸ passes⟩
  by_cases steals : ∃ v, VictimOf s i tag layer v
  · obtain ⟨v, victim⟩ := steals
    obtain ⟨o, owner⟩ := victim.owned
    rw [claimVoice_of_victim none victim]
    rcases victim.state with state | ⟨state, p, is, other⟩
    · rw [view_stealVoice_releasing s i tag layer v state]
      exact .released state owner (victim.allowed owner)
    · cases owner.symm.trans is
      rw [view_stealVoice_sounding s i tag layer v state owner]
      exact .stolen state owner (fun same => other (by rw [same]; exact ⟨rfl, rfl, rfl⟩)) (victim.allowed owner)
  · rw [claimVoice_of_noVictim none fun v victim => steals ⟨v, victim⟩, view_starveClaim]
    exact .starved

end Claim

end Sys2Proof.Machine
end

section
/-! What keeps the rules of the pool (O56, O57): the relation, and the steps that the pool does not notice. -/

namespace Sys2Proof.Machine

/-- The two settings that the pool's rules speak of (R82, R83). -/
def Station.limits (x : Station) : Nat × Nat := (x.settings.reserve, x.settings.cap)

/-- Station i is below its cap (R82). -/
def State.below (s : State) (i : StationId) : Prop := stationCount s i < (s.station i).settings.cap

/-- Reserves and caps are as they were, the pool's lists stay sound, and no station counts more voices than it did or
than its cap (R81, R82, R90). -/
structure ListsKept (s t : State) : Prop where
  limits : ∀ j, (t.station j).limits = (s.station j).limits
  lists : PoolOk s → PoolOk t
  counts : PoolOk s → ∀ j, stationCount t j ≤ max (stationCount s j) (s.station j).settings.cap

/-- The rules of the pool go from s to t, those of the slots with them (R62, R93). -/
structure PoolKept (s t : State) : Prop extends ListsKept s t where
  slots : PoolOk s → SlotsListed s → SlotsListed t

section Kept
variable {s t u : State} {i : StationId}

theorem cap_of_limits {j : StationId} (h : (t.station j).limits = (s.station j).limits) :
    (t.station j).settings.cap = (s.station j).settings.cap := congrArg Prod.snd h

theorem ListsKept.trans (h : ListsKept s t) (k : ListsKept t u) : ListsKept s u where
  limits j := (k.limits j).trans (h.limits j)
  lists ok := k.lists (h.lists ok)
  counts ok j := by
    have second := k.counts (h.lists ok) j
    rw [cap_of_limits (h.limits j)] at second
    have first := h.counts ok j
    omega

theorem PoolKept.trans (h : PoolKept s t) (k : PoolKept t u) : PoolKept s u where
  toListsKept := h.toListsKept.trans k.toListsKept
  slots ok listed := k.slots (h.lists ok) (h.slots ok listed)

/-- A change of the view within the rules on lists and counts. -/
theorem ListsKept.of_within (limits : ∀ j, (t.station j).limits = (s.station j).limits)
    (sound : (view s).ListsOk → (view t).ListsOk)
    (within : (view s).ListsOk → PoolView.Within s.below (view s) (view t)) : ListsKept s t := by
  have lists : PoolOk s → PoolOk t := fun ok => (listsOk_view t).1 (sound ((listsOk_view s).2 ok))
  refine ⟨limits, lists, fun ok j => ?_⟩
  rcases within ((listsOk_view s).2 ok) j with fewer | ⟨below, v, fewer⟩
  · exact Nat.le_trans (stationCount_le_of_counts ok (lists ok) fewer) (Nat.le_max_left _ _)
  · have one := stationCount_le_succ_of_counts ok (lists ok) fewer
    have room : stationCount s j < (s.station j).settings.cap := below
    omega

/-- A move of the view keeps the rules. -/
theorem PoolKept.of_moves (limits : ∀ j, (t.station j).limits = (s.station j).limits)
    (moves : PoolView.Moves s.below (view s) (view t)) : PoolKept s t where
  toListsKept := .of_within limits moves.lists moves.counts
  slots ok listed := (listed_view t).1 (moves.slots ((listsOk_view s).2 ok) ((listed_view s).2 listed))

/-- What leaves the view and the limits keeps the rules. -/
theorem PoolKept.of_view (limits : ∀ j, (t.station j).limits = (s.station j).limits) (same : view t = view s) :
    PoolKept s t := .of_moves limits (same ▸ .refl)

theorem PoolKept.refl (s : State) : PoolKept s s := .of_view (fun _ => rfl) rfl

theorem PoolKept.foldl {α : Type} (f : State → α → State) (one : ∀ s a, PoolKept s (f s a)) (l : List α) (s : State) :
    PoolKept s (l.foldl f s) := by
  induction l generalizing s with
  | nil => exact .refl s
  | cons a l ih => exact (one s a).trans (ih _)

theorem SameStation.limits {j : StationId} (h : SameStation s t j) : (t.station j).limits = (s.station j).limits :=
  congrArg (fun x : Config => (x.settings.reserve, x.settings.cap)) h.config

theorem AllocatorFrame.limits (h : AllocatorFrame s t) (j : StationId) : (t.station j).limits = (s.station j).limits :=
  (h.sameStation j).limits

/-! ### Steps that the pool does not notice -/

theorem view_of_same (voices : t.voices = s.voices) (free : t.freeList = s.freeList) (claims : t.claims = s.claims)
    (starve : t.starve = s.starve) (slots : slotState t = slotState s) (layers : noteLayers t = noteLayers s) :
    view t = view s := by
  unfold view State.voice
  rw [voices, free, claims, starve, slots, layers]

theorem note_updStation_of_note {f : Station → Station}
    (note : (f (s.station i)).fingering.note = (s.station i).fingering.note) (j : StationId) :
    (s.updStation i f).note j = s.note j := by
  rw [State.note, State.note, station_updStation]
  split
  · next same => rw [same, note]
  · rfl

theorem limits_updStation {f : Station → Station} (limits : (f (s.station i)).limits = (s.station i).limits)
    (j : StationId) : ((s.updStation i f).station j).limits = (s.station j).limits := by
  rw [station_updStation]
  split
  · next same => rw [same, limits]
  · rfl

/-- A station's update that leaves its note and its limits. -/
theorem poolKept_updStation {f : Station → Station}
    (note : (f (s.station i)).fingering.note = (s.station i).fingering.note)
    (limits : (f (s.station i)).limits = (s.station i).limits) : PoolKept s (s.updStation i f) := by
  have notes := note_updStation_of_note note
  refine .of_view (limits_updStation limits) (view_of_same rfl rfl rfl rfl ?_ ?_)
  · funext k
    simp only [slotState, slotOf, notes]
  · funext j
    simp only [noteLayers, notes]

theorem poolKept_report (s : State) (k : FaultKind) (st : Option StationId) (vo : Option VoiceId) (tag : Option Nat)
    (d : Word) : PoolKept s (report s k st vo tag d) := .of_view (fun _ => rfl) rfl

/-- A note's other items than its tag and slots. -/
theorem poolKept_updNote {f : NoteRecord → NoteRecord} (tag : ∀ n, (f n).tag = n.tag) (slots : ∀ n, (f n).slots = n.slots) :
    PoolKept s (s.updNote i f) := by
  have notes : ∀ j, (s.updNote i f).note j = if j = i then (s.note j).map f else s.note j := by
    intro j
    rw [updNote_eq, State.note, State.note, station_updStation]
    split
    · next same => rw [same]
    · rfl
  refine .of_view (limits_updStation rfl) (view_of_same rfl rfl rfl rfl ?_ ?_)
  · funext k
    rw [slotState, slotState, slotOf, slotOf, notes]
    by_cases own : k.station = i
    · rw [if_pos own]
      cases s.note k.station with
      | none => rfl
      | some n => simp only [Option.map_some, tag, slots]
    · rw [if_neg own]
  · funext j
    simp only [noteLayers, notes]
    split
    · rw [Option.map_map]
      congr 1
      funext n
      simp only [Function.comp, tag, slots]
    · rfl

/-- A retune moves pitches only. -/
theorem poolKept_retune (s : State) (i : StationId) : PoolKept s (retune s i) := by
  unfold retune
  split
  · refine PoolKept.foldl _ (fun s x => ?_) _ s
    unfold retuneSlot
    split
    case h_1 v _ =>
      refine .of_view (fun _ => rfl) (view_updVoice_same s v ?_ ?_)
      all_goals
        unfold Voice.retarget
        split
        · rfl
        · split <;> rfl
    all_goals exact .refl s
  · exact .refl s

end Kept

end Sys2Proof.Machine
end

section
/-! The pool's rules through a note's life: its slots' conditions, its end and its start (R62, R64, R99). -/

namespace Sys2Proof.Machine

/-! ### A slot's evaluation on the view -/

namespace PoolView
variable {V W : PoolView} {room : StationId → Prop} {v : VoiceId} {k : Owner}

/-- A DORMANT slot's claim served. -/
theorem Moves.claim (served : V.Served k (room k.station) W) (slot : V.slot k = some .dormant) : Moves room V W where
  lists := served.lists
  slots ok listed := served.listed ok (listed.with_ (.inr slot)) (by rw [slot]; nofun)
  counts := served.within

theorem counts_setVoice_released {j : StationId} {w : VoiceId} (was : V.state v = .sounding)
    (h : (V.setVoice v .releasing (V.owner v)).Counts j w) : V.Counts j w := by
  by_cases same : w = v
  · subst same
    rcases h with ⟨-, o, owner, own⟩ | ⟨drains, -⟩
    · exact .inl ⟨.inl was, o, (if_pos rfl : (V.setVoice w .releasing (V.owner w)).owner w = V.owner w).symm.trans owner, own⟩
    · cases (if_pos rfl : (V.setVoice w .releasing (V.owner w)).state w = .releasing).symm.trans drains
  · exact counts_setVoice_other same h

/-- A VOICED slot's voice released. -/
theorem Moves.release (slot : V.slot k = some (.voiced v)) (sounds : V.state v = .sounding) :
    Moves room V ((V.setVoice v .releasing (V.owner v)).setSlot k .dormant) where
  lists ok := (ok.setVoice (by rw [sounds]; decide) (by decide) (fun _ => ok.unclaimed (by rw [sounds]; decide)) _).setSlot k _
  slots _ listed := (listed.silence id slot (by decide) _).dormant id (by rw [setVoice, slot]; nofun)
  counts _ := .of_fewer fun _ _ h => counts_setVoice_released sounds h

/-- A voice that a slot is VOICED with sounds. -/
theorem Moves.of_silent (slot : V.slot k = some (.voiced v)) (silent : V.state v ≠ .sounding) (x : SlotState) :
    Moves room V (V.setSlot k x) where
  lists ok := ok.setSlot k x
  slots _ listed := absurd (((listed.others k id).voiced v).2 slot).1 silent
  counts _ := .of_fewer fun _ _ => id

theorem counts_dropClaim {j : StationId} {w : VoiceId} (h : (V.dropClaim k).Counts j w) : V.Counts j w :=
  h.congr rfl rfl fun _ member _ => (List.mem_filter.1 member).1

/-- A CLAIMING slot's claim dropped. -/
theorem Moves.unclaim (slot : V.slot k = some (.claiming v)) : Moves room V ((V.dropClaim k).setSlot k .dormant) where
  lists ok := (ok.dropClaim k).setSlot k _
  slots _ listed := (listed.dropClaim id slot).dormant id (by rw [dropClaim, slot]; nofun)
  counts _ := .of_fewer fun _ _ => counts_dropClaim (V := V) (k := k)

/-- A STARVED slot's entry dropped. -/
theorem Moves.unstarve (slot : V.slot k = some .starved) : Moves room V ((V.dropStarved k).setSlot k .dormant) where
  lists ok := (ok.dropStarved k).setSlot k _
  slots _ listed := (listed.dropStarved id slot).dormant id (by rw [dropStarved, slot]; nofun)
  counts _ := .of_fewer fun _ _ => id

end PoolView

section Conditions
variable (i : StationId) (tag : Nat) (s : State) (layer : LayerId)

theorem moves_evalSlot : PoolView.Moves s.below (view s) (view (evalSlot i tag s layer)) := by
  unfold evalSlot
  split
  · exact .refl
  next x found =>
  have slot : (view s).slot ⟨i, tag, layer⟩ = some x.state := (slotState_eq_some_iff s _ _).2 ⟨x, found, rfl⟩
  split
  · split
    case h_1 dormant =>
      exact .claim (k := ⟨i, tag, layer⟩) (served_claimVoice s i tag layer) (slot.trans (congrArg some dormant))
    all_goals exact .refl
  · split
    case h_1 => exact .refl
    case h_2 v voiced =>
      have at_ : (view s).slot ⟨i, tag, layer⟩ = some (.voiced v) := slot.trans (congrArg some voiced)
      rw [view_setSlot, view_releaseVoice]
      split
      · next sounds => exact .release at_ sounds
      · next silent => exact .of_silent at_ silent _
    case h_3 v claiming =>
      rw [view_setSlot, view_dropClaim]
      exact .unclaim (slot.trans (congrArg some claiming))
    case h_4 starved =>
      rw [view_setSlot, view_dropStarved]
      exact .unstarve (slot.trans (congrArg some starved))

theorem poolKept_evalSlot : PoolKept s (evalSlot i tag s layer) :=
  .of_moves (allocatorFrame_evalSlot i tag s layer).limits (moves_evalSlot i tag s layer)

theorem poolKept_evalConditions : PoolKept s (evalConditions s i) := by
  unfold evalConditions
  split
  · exact .foldl _ (fun s layer => poolKept_evalSlot i _ s layer) _ s
  · exact .refl s

end Conditions

/-! ### The end of a note -/

section NoteEnd
variable {s : State} {i : StationId} {tag : Nat} {K : Owner → Prop}

/-- The slot of a note that x is. -/
def slotName (i : StationId) (tag : Nat) (x : Slot) : Owner := ⟨i, tag, x.layer⟩

theorem slot_endSlot (i : StationId) (tag : Nat) (s : State) (x : Slot) :
    (view (endSlot i tag s x)).slot = (view s).slot := by
  unfold endSlot
  split
  · rw [view_releaseVoice]
    split <;> rfl
  · rw [view_dropClaim]; rfl
  · rw [view_dropStarved]; rfl
  · rfl

/-- A slot's end keeps the lists and adds to no count. -/
theorem lists_endSlot (i : StationId) (tag : Nat) (x : Slot) (ok : (view s).ListsOk) :
    (view (endSlot i tag s x)).ListsOk ∧ ∀ j w, (view (endSlot i tag s x)).Counts j w → (view s).Counts j w := by
  unfold endSlot
  split
  · rw [view_releaseVoice]
    split
    · next v _ sounds =>
      have is : (view s).state v = .sounding := sounds
      exact ⟨ok.setVoice (by rw [is]; decide) (by decide) (fun _ => ok.unclaimed (by rw [is]; decide)) _,
        fun _ _ => PoolView.counts_setVoice_released is⟩
    · exact ⟨ok, fun _ _ => id⟩
  · rw [view_dropClaim]
    exact ⟨ok.dropClaim _, fun _ _ => PoolView.counts_dropClaim⟩
  · rw [view_dropStarved]
    exact ⟨ok.dropStarved _, fun _ _ => id⟩
  · exact ⟨ok, fun _ _ => id⟩

/-- A slot's end takes its items away. -/
theorem listedBut_endSlot {x : Slot} (listed : (view s).ListedBut K) (fresh : ¬ K (slotName i tag x))
    (slot : (view s).slot (slotName i tag x) = some x.state) :
    (view (endSlot i tag s x)).ListedBut fun j => K j ∨ j = slotName i tag x := by
  unfold endSlot
  split
  · next v voiced =>
    have at_ : (view s).slot (slotName i tag x) = some (.voiced v) := slot.trans (congrArg some voiced)
    have sounds : (s.voice v).state = .sounding := (((listed.others _ fresh).voiced v).2 at_).1
    rw [view_releaseVoice, if_pos sounds]
    exact listed.silence fresh at_ (by decide) _
  · next v claiming =>
    rw [view_dropClaim]
    exact listed.dropClaim fresh (slot.trans (congrArg some claiming))
  · next starved =>
    rw [view_dropStarved]
    exact listed.dropStarved fresh (slot.trans (congrArg some starved))
  · next dormant => exact listed.with_ (.inr (slot.trans (congrArg some dormant)))

theorem lists_endSlots (i : StationId) (tag : Nat) (l : List Slot) : ∀ {s : State}, (view s).ListsOk →
    (view (l.foldl (endSlot i tag) s)).ListsOk
      ∧ ∀ j w, (view (l.foldl (endSlot i tag) s)).Counts j w → (view s).Counts j w := by
  induction l with
  | nil => exact fun ok => ⟨ok, fun _ _ => id⟩
  | cons x l ih =>
    intro s ok
    obtain ⟨ok', fewer⟩ := lists_endSlot i tag x ok
    obtain ⟨ok'', fewer'⟩ := ih ok'
    exact ⟨ok'', fun j w h => fewer j w (fewer' j w h)⟩

/-- The ends of all slots of a note take their items away, each in its turn. -/
theorem listedBut_endSlots {l : List Slot} : ∀ {s : State} {K : Owner → Prop}, (view s).ListedBut K →
    (l.map Slot.layer).Nodup → (∀ x ∈ l, ¬ K (slotName i tag x) ∧ (view s).slot (slotName i tag x) = some x.state) →
    (view (l.foldl (endSlot i tag) s)).ListedBut (fun j => K j ∨ ∃ x ∈ l, j = slotName i tag x)
      ∧ (view (l.foldl (endSlot i tag) s)).slot = (view s).slot := by
  induction l with
  | nil => exact fun listed _ _ => ⟨listed.congr fun j => by simp, rfl⟩
  | cons x l ih =>
    intro s K listed once slots
    obtain ⟨⟨fresh, slot⟩, rest⟩ := List.forall_mem_cons.1 slots
    obtain ⟨differs, once⟩ := List.nodup_cons.1 once
    have same := slot_endSlot i tag s x
    obtain ⟨listed', slot'⟩ := ih (listedBut_endSlot listed fresh slot) once fun y member => by
      obtain ⟨other, at_⟩ := rest y member
      refine ⟨fun h => h.elim other fun e => differs ?_, by rw [same, at_]⟩
      have layer : y.layer = x.layer := congrArg Owner.layer e
      exact layer ▸ List.mem_map_of_mem member
    refine ⟨listed'.congr fun j => ?_, slot'.trans same⟩
    rw [exists_mem_cons, or_assoc]

theorem view_noteGone (s : State) (i : StationId) :
    view (s.updFingering i fun g => { g with note := none }) = (view s).endNote i := by
  have notes : ∀ j, (s.updFingering i fun g => { g with note := none }).note j = if j = i then none else s.note j := by
    intro j
    rw [updFingering_eq, State.note, station_updStation]
    split <;> rfl
  unfold view PoolView.endNote
  congr 1
  · funext k
    rw [slotState, slotOf, notes]
    by_cases own : k.station = i
    · rw [if_pos own, if_pos own]
      rfl
    · rw [if_neg own, if_neg own]
      rfl
  · funext j
    rw [noteLayers, notes]
    by_cases own : j = i
    · rw [if_pos own, if_pos own]
      rfl
    · rw [if_neg own, if_neg own]
      rfl

theorem poolKept_noteOff (s : State) (i : StationId) : PoolKept s (noteOff s i) := by
  unfold noteOff
  split
  case h_2 => exact .refl s
  next n note =>
  let u := n.slots.foldl (endSlot i n.tag) s
  have frame : AllocatorFrame s u := AllocatorFrame.foldl _ (fun s x => allocatorFrame_endSlot i _ s x) _ s
  refine .of_moves (fun j => ?_) ?_
  · exact (limits_updStation (i := i) (f := fun x => { x with fingering := { x.fingering with note := none } }) rfl j).trans
      (frame.limits j)
  · rw [view_noteGone]
    refine ⟨fun ok => ((lists_endSlots i n.tag n.slots ok).1).congr rfl rfl rfl, fun ok listed => ?_,
      fun ok => .of_fewer (lists_endSlots i n.tag n.slots ok).2⟩
    have once : (n.slots.map Slot.layer).Nodup := ((listed_view s).1 listed).1 i n note
    obtain ⟨ended, slot⟩ := listedBut_endSlots (i := i) (tag := n.tag) listed once fun x member =>
      ⟨id, (slotState_eq_some_iff s _ _).2 ⟨x, slotOf_of_mem note once member, rfl⟩⟩
    refine ended.endNote (fun j own => ?_) fun j h => ?_
    · cases at_ : slotOf s j.station j.tag j.layer with
      | none => exact .inr (.inl (by rw [slot]; exact congrArg (Option.map Slot.state) at_))
      | some x =>
        obtain ⟨n', note', tag, member, layer⟩ := mem_of_slotOf at_
        rw [own, note] at note'
        cases note'
        refine .inl (.inr ⟨x, member, ?_⟩)
        rw [slotName, ← own, tag, layer]
    · obtain ⟨x, -, rfl⟩ := h.resolve_left id
      rfl

end NoteEnd

/-! ### The start of a note -/

section NoteStart
variable {s : State} {i : StationId} {n : NoteRecord}

theorem nodup_layers_slotsOf (s : State) (layers : List Layer) : ((slotsOf s layers).map Slot.layer).Nodup := by
  have once : ([0, 1, 2] : List LayerId).Nodup := by decide
  refine once.sublist ?_
  rw [slotsOf, List.map_map]
  rcases layers with _ | ⟨a, _ | ⟨b, _ | ⟨c, rest⟩⟩⟩
  · exact List.nil_sublist _
  · exact List.sublist_append_left [0] [1, 2]
  · exact List.sublist_append_left [0, 1] [2]
  · exact List.Sublist.refl _

theorem dormant_slotsOf {layers : List Layer} {x : Slot} (h : x ∈ slotsOf s layers) : x.state = .dormant := by
  obtain ⟨p, -, rfl⟩ := List.mem_map.1 h
  rfl

/-- The first slot of a layer, all slots DORMANT. -/
theorem find?_layer {l : List Slot} (dormant : ∀ x ∈ l, x.state = .dormant) (layer : LayerId) :
    (l.find? fun x => x.layer == layer).map Slot.state = if layer ∈ l.map Slot.layer then some .dormant else none := by
  split
  · next member =>
    obtain ⟨x, mem, rfl⟩ := List.mem_map.1 member
    cases found : l.find? fun y => y.layer == x.layer with
    | none => exact absurd (beq_self_eq_true x.layer) (List.find?_eq_none.1 found x mem)
    | some y => exact congrArg some (dormant y (List.mem_of_find?_eq_some found))
  · next absent =>
    have no : l.find? (fun x => x.layer == layer) = none :=
      List.find?_eq_none.2 fun x mem is => absent (beq_iff_eq.1 is ▸ List.mem_map_of_mem mem)
    rw [no]
    rfl

theorem view_noteStarted (s : State) (i : StationId) (c : Nat) (dormant : ∀ x ∈ n.slots, x.state = .dormant) :
    view ({ s with tagCounter := c }.updFingering i fun g => { g with note := some n, onsetPending := false }) =
      (view s).beginNote i n.tag (n.slots.map Slot.layer) := by
  have notes : ∀ j, ({ s with tagCounter := c }.updFingering i fun g =>
      { g with note := some n, onsetPending := false }).note j = if j = i then some n else s.note j := by
    intro j
    rw [updFingering_eq, State.note, station_updStation]
    split <;> rfl
  unfold view PoolView.beginNote
  congr 1
  · funext k
    rw [slotState, slotOf, notes]
    by_cases own : k.station = i
    · rw [if_pos own, if_pos own]
      dsimp only
      by_cases tag : n.tag = k.tag
      · rw [if_pos tag, find?_layer dormant]
        exact ite_congr (propext ⟨fun h => ⟨tag.symm, h⟩, fun h => h.2⟩) (fun _ => rfl) fun _ => rfl
      · rw [if_neg tag, if_neg fun h => tag h.1.symm]
        rfl
    · rw [if_neg own, if_neg own]
      rfl
  · funext j
    rw [noteLayers, notes]
    by_cases own : j = i
    · rw [if_pos own, if_pos own]
      rfl
    · rw [if_neg own, if_neg own]
      rfl

theorem poolKept_noteOn (silent : s.note i = none) (number : Nat) (raised : Bool) :
    PoolKept s (noteOn s i number raised) := by
  unfold noteOn
  refine PoolKept.trans ?_ (poolKept_evalConditions i _)
  refine .of_moves (limits_updStation rfl) ?_
  rw [view_noteStarted s i _ fun x => dormant_slotsOf]
  refine ⟨fun ok => ok.congr rfl rfl rfl, fun ok listed => ?_, fun _ => .of_fewer fun _ _ => id⟩
  refine listed.beginNote (fun j own => ?_) _ (nodup_layers_slotsOf _ _)
  have none : slotOf s j.station j.tag j.layer = none := by rw [slotOf, own, silent]
  exact congrArg (Option.map Slot.state) none

end NoteStart

end Sys2Proof.Machine
end

section
/-! The pool's rules where voices are freed, handed over and served from the starve list (R91, R94 to R96). -/

namespace Sys2Proof.Machine

/-! ### A freed voice on the view -/

namespace PoolView
variable {V W : PoolView} {room : StationId → Prop} {v w : VoiceId} {k : Owner} {j : StationId}

theorem ListsOk.withStarve (ok : V.ListsOk) (l : List Starved) : ({ V with starve := l } : PoolView).ListsOk :=
  ok.congr rfl rfl rfl

/-- The oldest entry erased is the slot's entry dropped. -/
theorem erase_eq_dropStarved (once : V.starve.Nodup) :
    ({ V with starve := V.starve.erase k.starved } : PoolView) = V.dropStarved k := by
  rw [once.erase_eq_filter]
  unfold dropStarved
  congr 2
  funext e
  rw [bne, Bool.beq_eq_decide_eq, decide_not]

/-- A STARVED slot given a voice that was not SOUNDING, its entry erased. -/
theorem ListedBut.serve (listed : V.Listed) (starved : k.starved ∈ V.starve) (was : V.state v ≠ .sounding) :
    (({ V with starve := V.starve.erase k.starved } : PoolView).give v k).Listed := by
  have slot : V.slot k = some .starved := (listed.others k id).starved.1 starved
  rw [erase_eq_dropStarved listed.starvedOnce]
  exact (listed.dropStarved id slot).give id (by rw [PoolView.dropStarved, slot]; nofun) was

/-- A voice in use that no claim names and that does not sound, freed to the tail of the free list. -/
theorem Moves.free (inUse : V.state v ≠ .free) (silent : V.state v ≠ .sounding)
    (unclaimed : V.ListsOk → ∀ c ∈ V.claims, c.voice ≠ v) :
    Moves room V { V.setVoice v .free none with free := V.free ++ [v] } where
  lists ok := ok.freed inUse (unclaimed ok)
  slots _ listed := (listed.setVoice silent (by decide) none).setFree _
  counts _ := .of_fewer fun j w h => by
    by_cases same : w = v
    · subst same
      have state : (V.setVoice w .free none).state w = .free := if_pos rfl
      rcases h with ⟨is | is, -⟩ | ⟨is, -⟩ <;> cases state.symm.trans is
    · exact counts_setVoice_other (x := .free) (p := none) same h

/-- A voice in use that no claim names and that does not sound, given to a STARVED slot. -/
theorem Moves.serve (inUse : V.state v ≠ .free) (silent : V.state v ≠ .sounding)
    (unclaimed : V.ListsOk → ∀ c ∈ V.claims, c.voice ≠ v) (starved : k.starved ∈ V.starve)
    (may : V.ListsOk → room k.station ∨ V.Counts k.station v) :
    Moves room V (({ V with starve := V.starve.erase k.starved } : PoolView).give v k) where
  lists ok := (ok.withStarve (V.starve.erase k.starved)).give inUse (unclaimed ok) k
  slots _ listed := listed.serve starved silent
  counts ok j := by
    rcases may ok with may | counted
    · exact within_give (V := { V with starve := _ }) may j
    · refine .inl fun w h => ?_
      by_cases same : w = v
      · subst same
        exact (station_of_counts_give h) ▸ counted
      · exact counts_give_other (V := { V with starve := _ }) same h

/-- The head of the free list given to a STARVED slot. -/
theorem Moves.serveFree {rest : List VoiceId} (list : V.free = v :: rest) (starved : k.starved ∈ V.starve)
    (below : room k.station) :
    Moves room V (({ V with free := rest, starve := V.starve.erase k.starved } : PoolView).give v k) where
  lists ok := (ok.withStarve (V.starve.erase k.starved)).take list k
  slots ok listed := by
    have isFree := (ok.free v).1 (list ▸ List.mem_cons_self)
    exact (listed.serve starved (by rw [isFree]; decide)).setFree rest
  counts _ := within_give (V := { V with free := _, starve := _ }) below

/-- A claim's voice given to the claimant slot, which counted it already (R91). -/
theorem Moves.handOver {c : Claim} (member : c ∈ V.claims) (drains : V.state c.voice = .draining) :
    Moves room V ((V.unbind c.voice).give c.voice c.owner) where
  lists ok := (ok.unbind c.voice).give (by rw [unbind, drains]; decide) (PoolView.ListsOk.unclaimed_unbind c.voice) _
  slots ok listed := by
    have slot : V.slot c.owner = some (.claiming c.voice) := ((listed.others c.owner id).claiming c.voice).1 member
    rw [unbind_of_claimed ok listed member]
    exact (listed.dropClaim id slot).give id (by rw [dropClaim, slot]; nofun) (by rw [dropClaim, drains]; decide)
  counts _ := .of_fewer fun j w h => by
    by_cases same : w = c.voice
    · subst same
      exact .inr ⟨drains, c, member, rfl, (station_of_counts_give h).symm⟩
    · exact (counts_give_other same h).congr rfl rfl fun _ claim _ => (List.mem_filter.1 claim).1

/-- A voice given a state and an owner twice has the last. -/
theorem give_setVoice (V : PoolView) (v : VoiceId) (x : VoiceState) (o : Option Owner) (k : Owner) :
    (V.setVoice v x o).give v k = V.give v k := by
  refine PoolView.ext ?_ ?_ rfl rfl rfl rfl rfl
  all_goals
    funext w
    by_cases same : w = v
    · exact (if_pos same).trans (if_pos same).symm
    · exact (if_neg same).trans ((if_neg same).trans (if_neg same).symm)

end PoolView

/-! ### The arbiter, the handover and the service -/

section Served
variable {s : State} {v : VoiceId}

/-- A voice that the arbiter may take: it does not sound and no claim names it. -/
def Leaves (s : State) (v : VoiceId) : Prop :=
  (s.voice v).state = .faulted ∨ (s.voice v).state = .releasing
    ∨ ((s.voice v).state = .draining ∧ claimOf s v = none)

theorem Leaves.inUse (h : Leaves s v) : (s.voice v).state ≠ .free := by
  rcases h with is | is | ⟨is, -⟩ <;> rw [is] <;> decide

theorem Leaves.silent (h : Leaves s v) : (s.voice v).state ≠ .sounding := by
  rcases h with is | is | ⟨is, -⟩ <;> rw [is] <;> decide

theorem Leaves.unclaimed (h : Leaves s v) (ok : (view s).ListsOk) : ∀ c ∈ (view s).claims, c.voice ≠ v := by
  have other : (s.voice v).state ≠ .draining → ∀ c ∈ (view s).claims, c.voice ≠ v := fun other => ok.unclaimed other
  rcases h with is | is | ⟨-, none⟩
  · exact other (by rw [is]; decide)
  · exact other (by rw [is]; decide)
  · exact fun c member is => List.find?_eq_none.1 none c member (beq_iff_eq.2 is)

/-- A voice that did not count leaves the count when it is freed. -/
theorem below_of_freed {i : StationId} (uncounted : countsTo s i v = false) (below : (freed s v).below i) : s.below i := by
  have same : stationCount s i ≤ stationCount (freed s v) i := List.countP_mono_left fun w _ counts => by
    have other : w ≠ v := fun e => Bool.noConfusion (uncounted.symm.trans (e ▸ counts))
    have voice : (freed s v).voice w = s.voice w := voice_updVoice_ne s v w (fun _ => Voice.free) other
    have claim : claimOf (freed s v) w = claimOf s w := rfl
    rw [countsTo, voice, claim]
    exact counts
  exact Nat.lt_of_le_of_lt same below

theorem poolKept_freeVoice (leaves : Leaves s v) : PoolKept s (freeVoice s v) := by
  refine .of_moves (allocatorFrame_freeVoice s v).limits ?_
  have gone : view (freed s v) = (view s).setVoice v .free none := view_updVoice s v _
  unfold freeVoice
  dsimp only
  split
  · next e found =>
    have member : e ∈ s.starve := List.mem_of_find?_eq_some found
    have passes : freeTest (freed s v) e.station (s.freeList.length + 1) = true :=
      List.find?_some (p := fun e : Starved => freeTest (freed s v) e.station (s.freeList.length + 1)) found
    have below : (freed s v).below e.station := ((freeTest_iff _ _ _).1 passes).1
    rw [view_giveVoice]
    have given : (view { freed s v with starve := s.starve.erase e }).give v ⟨e.station, e.tag, e.layer⟩ =
        ({ view s with starve := (view s).starve.erase e } : PoolView).give v ⟨e.station, e.tag, e.layer⟩ := by
      have erased : view { freed s v with starve := s.starve.erase e } =
          ({ view s with starve := (view s).starve.erase e } : PoolView).setVoice v .free none :=
        congrArg (fun V : PoolView => { V with starve := s.starve.erase e }) gone
      rw [erased, PoolView.give_setVoice]
    have moves := PoolView.Moves.serve (room := s.below) (k := ⟨e.station, e.tag, e.layer⟩) leaves.inUse leaves.silent
      leaves.unclaimed member fun ok => by
        by_cases counted : countsTo s e.station v = true
        · exact .inr ((countsTo_iff_counts ((listsOk_view s).1 ok) _ _).1 counted)
        · exact .inl (below_of_freed (Bool.eq_false_iff.2 counted) below)
    exact given ▸ moves
  · have moves := PoolView.Moves.free (room := s.below) leaves.inUse leaves.silent leaves.unclaimed
    rw [← gone] at moves
    exact moves

theorem poolKept_handOver {c : Claim} (drains : (s.voice v).state = .draining) (bound : claimOf s v = some c) :
    PoolKept s (handOver s c) := by
  refine .of_moves (allocatorFrame_handOver s c).limits ?_
  have voice : c.voice = v := voice_of_claimOf bound
  have moves := PoolView.Moves.handOver (room := s.below) (V := view s) (c := c) (List.mem_of_find?_eq_some bound)
    (voice ▸ drains)
  rw [← view_unbind] at moves
  rw [handOver, view_giveVoice]
  exact moves

theorem poolKept_serveEntries {l : List Starved} : ∀ {s : State}, l.Sublist s.starve → PoolKept s (serveEntries l s) := by
  induction l with
  | nil => exact fun _ => .refl _
  | cons e l ih =>
    intro s sub
    unfold serveEntries
    split
    · exact .refl s
    next v rest list =>
    split
    · next passes =>
      have below : s.below e.station := ((freeTest_iff _ _ _).1 passes).1
      have later : l.Sublist (s.starve.erase e) := by
        have erased := sub.erase e
        rwa [List.erase_cons_head] at erased
      refine PoolKept.trans ?_ (ih later)
      refine .of_moves (fun j => ((allocatorFrame_giveVoice _ v _ _ _).limits j).trans rfl) ?_
      rw [view_giveVoice]
      exact .serveFree (k := ⟨e.station, e.tag, e.layer⟩) list (sub.subset List.mem_cons_self) below
    · exact ih ((List.sublist_cons_self e l).trans sub)

theorem poolKept_serveStarved (s : State) : PoolKept s (serveStarved s) := poolKept_serveEntries (.refl _)

end Served

end Sys2Proof.Machine
end

section
/-! The pool's rules where voices are taken away: removals under a lowered cap (R101), parity errors (R103, R104),
PANIC (R102); and the sample period. -/

namespace Sys2Proof.Machine

/-! ### Removals on the view -/

namespace PoolView
variable {V W : PoolView} {room : StationId → Prop} {v : VoiceId} {k o : Owner}

theorem ListsOk.drained (ok : V.ListsOk) (inUse : V.state v ≠ .free) : (V.setVoice v .draining none).ListsOk :=
  ok.setVoice inUse (by decide) (fun h => absurd rfl h) none

/-- A RELEASING voice drains. -/
theorem Moves.drain (state : V.state v = .releasing) : Moves room V (V.setVoice v .draining none) where
  lists ok := ok.drained (by rw [state]; decide)
  slots _ listed := listed.setVoice (by rw [state]; decide) (by decide) none
  counts ok := .of_fewer fun _ _ => counts_drained ok (by rw [state]; decide)

/-- A SOUNDING voice drains and its slot starves. -/
theorem Moves.starve (state : V.state v = .sounding) (owner : V.owner v = some o) :
    Moves room V ((V.setVoice v .draining none).starveSlot o) where
  lists ok := (ok.drained (by rw [state]; decide)).starveSlot o
  slots _ listed := by
    have voiced : V.slot o = some (.voiced v) := ((listed.others o id).voiced v).1 ⟨state, owner⟩
    exact (listed.silence id voiced (by decide) none).starveSlot id (by rw [setVoice, voiced]; nofun)
  counts ok := .of_fewer fun _ _ => counts_drained ok (by rw [state]; decide)

/-- A claim withdrawn, its slot starving. -/
theorem Moves.withdraw {c : Claim} (member : c ∈ V.claims) : Moves room V ((V.dropClaim c.owner).starveSlot c.owner) where
  lists ok := (ok.dropClaim _).starveSlot _
  slots _ listed := by
    have claiming : V.slot c.owner = some (.claiming c.voice) := ((listed.others c.owner id).claiming c.voice).1 member
    exact (listed.dropClaim id claiming).starveSlot id (by rw [dropClaim, claiming]; nofun)
  counts _ := .of_fewer fun _ _ => counts_dropClaim (V := V) (k := c.owner)

end PoolView

section Removal
variable {s : State} {i : StationId}

theorem view_toDrain (s : State) (v : VoiceId) :
    view (s.updVoice v Voice.toDrain) = (view s).setVoice v .draining none := view_updVoice s v _

theorem poolKept_removeOne (counted : 0 < stationCount s i) : PoolKept s (removeOne s i) := by
  refine .of_moves (allocatorFrame_removeOne s i).limits ?_
  rcases removal_cases counted with ⟨v, first⟩ | ⟨none, v, o, first, owner, rfl⟩
    | ⟨noRelease, noSounding, before, c, after, list, rfl, last⟩
  · rw [removeOne_of_releasing first, view_toDrain]
    exact .drain first.1.1
  · rw [removeOne_of_sounding none first owner, view_starveSlot, view_toDrain]
    exact .starve first.1.1 owner
  · have member : c ∈ (view s).claims := by
      have all : c ∈ before ++ c :: after := List.mem_append_right _ (List.mem_cons_self ..)
      rw [← list] at all
      exact all
    rw [removeOne_of_claim noRelease noSounding list rfl last, view_starveSlot, view_dropClaim]
    exact .withdraw member

theorem poolKept_removeToCap (fuel : Nat) (s : State) : PoolKept s (removeToCap i fuel s) := by
  induction fuel generalizing s with
  | zero => exact .refl s
  | succ fuel ih =>
    by_cases within : stationCount s i ≤ (s.station i).settings.cap
    · rw [removeToCap_of_within within]
      exact .refl s
    · have above := Nat.not_le.1 within
      rw [removeToCap_of_above above]
      exact (poolKept_removeOne (Nat.lt_of_le_of_lt (Nat.zero_le _) above)).trans (ih _)

theorem poolKept_lowerToCap (s : State) (i : StationId) : PoolKept s (lowerToCap s i) := poolKept_removeToCap 32 s

/-- The removals bring the count within the cap. -/
theorem stationCount_lowerToCap (n : Nat) : ∀ {s : State}, PoolOk s → stationCount s i ≤ n →
    stationCount (lowerToCap s i) i ≤ (s.station i).settings.cap := by
  induction n with
  | zero =>
    intro s _ most
    rw [lowerToCap_of_within (Nat.le_trans most (Nat.zero_le _))]
    exact Nat.le_trans most (Nat.zero_le _)
  | succ n ih =>
    intro s ok most
    by_cases within : stationCount s i ≤ (s.station i).settings.cap
    · rwa [lowerToCap_of_within within]
    · have above := Nat.not_le.1 within
      obtain ⟨kept, lower, -⟩ := removeOne_spec ok (Nat.lt_of_le_of_lt (Nat.zero_le _) above)
      rw [lowerToCap_of_above ok above, ← cap_removeOne]
      exact ih kept (by omega)

end Removal

/-! ### A voice held or orphaned by a parity error -/

section Parity
variable {s : State} {v : VoiceId} {f : Voice → Voice} {x : VoiceState} {p : Option Owner}

/-- A voice that is being stepped. -/
def Used (s : State) (v : VoiceId) : Prop :=
  (s.voice v).state = .sounding ∨ (s.voice v).state = .releasing ∨ (s.voice v).state = .draining

theorem Used.inUse (h : Used s v) : (s.voice v).state ≠ .free := by
  rcases h with is | is | is <;> rw [is] <;> decide

/-- The states a parity error leads to. -/
def Cut (x : VoiceState) : Prop := x = .faulted ∨ x = .draining

theorem Cut.stays (h : Cut x) : x ≠ .free := by rcases h with rfl | rfl <;> decide

theorem Cut.silent (h : Cut x) : x ≠ .sounding := by rcases h with rfl | rfl <;> decide

theorem view_cut (state : (f (s.voice v)).state = x) (owner : (f (s.voice v)).owner = p) :
    view ((unbind s v).updVoice v f) = ((view s).unbind v).setVoice v x p := by
  have upd := view_updVoice (unbind s v) v f
  rw [view_unbind] at upd
  rw [upd]
  exact congr (congrArg (fun x p => ((view s).unbind v).setVoice v x p) state) owner

/-- Cut off from its claim, the voice counts to no station. -/
theorem listsKept_cut (used : Used s v) (cut : Cut x) (state : (f (s.voice v)).state = x)
    (owner : (f (s.voice v)).owner = p) : ListsKept s ((unbind s v).updVoice v f) := by
  have seen := view_cut state owner
  refine .of_within (fun _ => rfl) (fun ok => ?_) fun ok => .of_fewer fun j w h => ?_
  · rw [seen]
    exact (ok.unbind v).setVoice used.inUse cut.stays (fun _ => PoolView.ListsOk.unclaimed_unbind v) p
  · rw [seen] at h
    by_cases same : w = v
    · subst same
      have now : (((view s).unbind w).setVoice w x p).state w = x := if_pos rfl
      rcases h with ⟨is | is, -⟩ | ⟨-, c, member, voice, -⟩
      · exact absurd (now.symm.trans is) cut.silent
      · rcases cut with rfl | rfl <;> cases now.symm.trans is
      · exact absurd voice (PoolView.ListsOk.unclaimed_unbind w c member)
    · exact (PoolView.counts_setVoice_other same h).congr rfl rfl fun _ claim _ => (List.mem_filter.1 claim).1

theorem listsKept_reclaim (s : State) (o : Option Owner) : ListsKept s (reclaim s o) := by
  cases o with
  | none => exact (PoolKept.refl s).toListsKept
  | some o =>
    have served := served_claimVoice s o.station o.tag o.layer
    exact .of_within (allocatorFrame_claimVoice s _ _ _).limits served.lists
      (PoolView.Served.within (room := s.below) served)

/-- The slot that loses its voice or its claim is without items; where there is none, no slot has lost one. -/
theorem listedBut_cut (used : Used s v) (cut : Cut x) (ok : (view s).ListsOk) (listed : (view s).Listed) :
    (∀ k, slotLosing s v = some k →
        (((view s).unbind v).setVoice v x p).ListedBut (fun j => False ∨ j = k) ∧ (view s).slot k ≠ none)
      ∧ (slotLosing s v = none → (((view s).unbind v).setVoice v x p).Listed) := by
  rcases used with is | is | is
  · have losing : slotLosing s v = (view s).owner v := by rw [slotLosing, is]; rfl
    have at_ : (view s).state v = .sounding := is
    rw [PoolView.unbind_of_unclaimed (ok.unclaimed (by rw [at_]; decide)), losing]
    refine ⟨fun k owner => ?_, fun none => absurd none (listed.owned v at_)⟩
    have voiced : (view s).slot k = some (.voiced v) := ((listed.others k id).voiced v).1 ⟨at_, owner⟩
    exact ⟨listed.silence id voiced cut.silent p, by rw [voiced]; nofun⟩
  · have losing : slotLosing s v = none := by rw [slotLosing, is]
    have at_ : (view s).state v = .releasing := is
    rw [PoolView.unbind_of_unclaimed (ok.unclaimed (by rw [at_]; decide)), losing]
    exact ⟨nofun, fun _ => listed.setVoice (by rw [at_]; decide) cut.silent p⟩
  · have losing : slotLosing s v = (claimOf s v).map Claim.owner := by rw [slotLosing, is]
    have silent : (view s).state v ≠ .sounding := fun at_ => by cases is.symm.trans at_
    rw [losing]
    cases bound : claimOf s v with
    | none =>
      rw [PoolView.unbind_of_unclaimed fun c member voice => List.find?_eq_none.1 bound c member (beq_iff_eq.2 voice)]
      exact ⟨nofun, fun _ => listed.setVoice silent cut.silent p⟩
    | some c =>
      have member : c ∈ (view s).claims := List.mem_of_find?_eq_some bound
      obtain rfl := voice_of_claimOf bound
      have claiming : (view s).slot c.owner = some (.claiming c.voice) :=
        ((listed.others c.owner id).claiming c.voice).1 member
      rw [PoolView.unbind_of_claimed ok listed member]
      refine ⟨fun k is => ?_, nofun⟩
      cases is
      exact ⟨(listed.dropClaim id claiming).setVoice silent cut.silent p, by rw [claiming]; nofun⟩

/-- A parity error on a voice in use, and the claim made again (R103, R104). -/
theorem poolKept_parity (used : Used s v) (cut : Cut x) (state : (f (s.voice v)).state = x)
    (owner : (f (s.voice v)).owner = p) :
    PoolKept s (reclaim ((unbind s v).updVoice v f) (slotLosing s v)) where
  toListsKept := (listsKept_cut used cut state owner).trans (listsKept_reclaim _ _)
  slots ok listed := by
    have ok' := (listsOk_view s).2 ok
    obtain ⟨losing, whole⟩ := listedBut_cut (p := p) used cut ok' ((listed_view s).2 listed)
    have seen := view_cut state owner
    rw [← listed_view]
    cases is : slotLosing s v with
    | none =>
      rw [reclaim, seen]
      exact whole is
    | some k =>
      obtain ⟨others, present⟩ := losing k is
      have lists := (listsOk_view _).2 ((listsKept_cut used cut state owner).lists ok)
      rw [← seen] at others
      exact (served_claimVoice _ k.station k.tag k.layer).listed lists others (by rw [seen]; exact present)

theorem poolKept_faultVoice (used : Used s v) : PoolKept s (faultVoice s v) := poolKept_parity used (.inl rfl) rfl rfl

theorem poolKept_orphanVoice (used : Used s v) : PoolKept s (orphanVoice s v) := poolKept_parity used (.inr rfl) rfl rfl

end Parity

/-! ### The sample period -/

section Period
variable {v : VoiceId}

theorem poolKept_soundVoice (v : VoiceId) (r : State × Sums) : PoolKept r.1 (soundVoice v r).1 :=
  .of_view (fun _ => rfl) (view_updVoice_same r.1 v rfl rfl)

theorem poolKept_readAndSound {r : State × Sums} (used : Used r.1 v) : PoolKept r.1 (readAndSound v r).1 := by
  unfold readAndSound
  split
  · exact poolKept_soundVoice v r
  · next at_ _ =>
    have reported : PoolKept r.1 (reportParity r.1 v at_) := poolKept_report r.1 _ _ _ _ _
    dsimp only
    split
    · exact reported.trans (poolKept_faultVoice (s := reportParity r.1 v at_) used)
    · exact (reported.trans (poolKept_orphanVoice (s := reportParity r.1 v at_) used)).trans
        (poolKept_soundVoice v (orphanVoice (reportParity r.1 v at_) v, r.2))

theorem poolKept_pitchStep (s : State) (v : VoiceId) : PoolKept s (pitchStep s v) := by
  have re := repitched_formPitch s (s.voice v)
  exact .of_view (fun _ => rfl) (view_updVoice_same s v re.state re.owner)

theorem poolKept_stepVoice (r : State × Sums) (v : VoiceId) : PoolKept r.1 (stepVoice r v).1 := by
  by_cases used : Used r.1 v
  · have now : Used (pitchStep r.1 v) v := by
      unfold Used
      rw [voice_pitchStep, (repitched_formPitch r.1 (r.1.voice v)).state]
      exact used
    have stepped : stepVoice r v = readAndSound v (pitchStep r.1 v, r.2) := stepVoice_of_used used r.2
    rw [stepped]
    exact (poolKept_pitchStep r.1 v).trans (poolKept_readAndSound (r := (pitchStep r.1 v, r.2)) now)
  · have idle : (r.1.voice v).state = .free ∨ (r.1.voice v).state = .faulted := by
      unfold Used at used
      cases is : (r.1.voice v).state with
      | free => exact .inl rfl
      | faulted => exact .inr rfl
      | sounding => exact absurd (.inl is) used
      | releasing => exact absurd (.inr (.inl is)) used
      | draining => exact absurd (.inr (.inr is)) used
    have stays : stepVoice r v = r := stepVoice_of_idle idle r.2
    rw [stays]
    exact .refl _

theorem poolKept_renderVoices (order : List VoiceId) (s : State) : PoolKept s (renderVoices order s).1 := by
  have fold : ∀ (l : List VoiceId) (r : State × Sums), PoolKept r.1 (l.foldl stepVoice r).1 := by
    intro l
    induction l with
    | nil => exact fun r => .refl _
    | cons v l ih => exact fun r => (poolKept_stepVoice r v).trans (ih _)
  exact fold (inOrder order allVoices) (s, Vector.replicate 4 ⟨0, 0⟩)

/-- What time that goes by does to a station leaves note and limits. -/
theorem poolKept_stations {s : State} {f : Station → Station} (note : ∀ x, (f x).fingering.note = x.fingering.note)
    (limits : ∀ x, (f x).limits = x.limits) : PoolKept s { s with stations := s.stations.map f } := by
  have station := station_map s f
  refine .of_view (fun j => ?_) (view_of_same rfl rfl rfl rfl ?_ ?_)
  · rw [station, limits]
  · funext k
    simp only [slotState, slotOf, State.note, station, note]
  · funext j
    simp only [noteLayers, State.note, station, note]

theorem poolKept_samplePeriod (voices : List VoiceId) (stations : List StationId) (s : State) :
    PoolKept s (samplePeriod voices stations s) := by
  have ticked : PoolKept s (tickClocks s) :=
    (poolKept_stations (s := s) (f := tickStation (restOfFrame s)) (fun _ => rfl) fun _ => rfl).trans
      (.of_view (fun _ => rfl) rfl)
  refine (ticked.trans (poolKept_renderVoices voices _)).trans ?_
  refine PoolKept.trans (.of_view (t := audioStep _ (renderVoices voices (tickClocks s)).2) (fun _ => rfl) rfl) ?_
  refine .foldl _ (fun s i => ?_) _ _
  unfold clipStation
  dsimp only
  split
  · exact .of_view (fun _ => rfl) rfl
  · exact .of_view (fun _ => rfl) rfl

theorem poolKept_passBitTime (s : State) : PoolKept s (passBitTime s) := by
  unfold passBitTime
  split
  · exact (poolKept_stations (s := s) (f := Station.passPeriods 2) (fun _ => rfl) fun _ => rfl).trans
      (.of_view (fun _ => rfl) rfl)
  · exact .refl s

end Period

/-! ### PANIC -/

section Panic
variable {s : State}

/-- Every voice that sounded or was released drains, and the lists are empty. -/
theorem view_panic (s : State) : view { panicPool s with stations := s.stations.map Station.panicked } =
    { state := fun v => ((s.voice v).panicked).state
      owner := fun v => ((s.voice v).panicked).owner
      free := s.freeList
      claims := []
      starve := []
      slot := fun _ => none
      layers := fun _ => none } := by
  have notes : ∀ j, State.note { panicPool s with stations := s.stations.map Station.panicked } j = none := by
    intro j
    simp [State.note, State.station, Station.panicked]
  have voices : ∀ v, State.voice { panicPool s with stations := s.stations.map Station.panicked } v = (s.voice v).panicked := by
    intro v
    simp [State.voice, panicPool]
  refine PoolView.ext ?_ ?_ rfl rfl rfl ?_ ?_
  · funext v
    exact congrArg Voice.state (voices v)
  · funext v
    exact congrArg Voice.owner (voices v)
  · funext k
    have none : slotOf { panicPool s with stations := s.stations.map Station.panicked } k.station k.tag k.layer = none := by
      rw [slotOf, notes]
    exact congrArg (Option.map Slot.state) none
  · funext j
    exact congrArg (Option.map fun n : NoteRecord => (n.tag, n.slots.map Slot.layer)) (notes j)

theorem state_panicked (x : Voice) : x.panicked.state =
    if x.state = .sounding ∨ x.state = .releasing then .draining else x.state := by
  unfold Voice.panicked
  split
  · next is => rw [if_pos (.inl is)]; rfl
  · next is => rw [if_pos (.inr is)]; rfl
  all_goals
    next is => rw [if_neg (by rw [is]; decide)]

theorem silent_panicked (x : Voice) : x.panicked.state ≠ .sounding ∧ x.panicked.state ≠ .releasing := by
  rw [state_panicked]
  split
  · exact ⟨by decide, by decide⟩
  · next other => exact ⟨fun is => other (.inl is), fun is => other (.inr is)⟩

theorem free_panicked (x : Voice) : x.panicked.state = .free ↔ x.state = .free := by
  rw [state_panicked]
  split
  · next is => exact ⟨nofun, fun free => by rw [free] at is; rcases is with is | is <;> cases is⟩
  · exact Iff.rfl

theorem poolKept_panic (s : State) : PoolKept s { panicPool s with stations := s.stations.map Station.panicked } := by
  refine .of_moves (fun j => (congrArg Station.limits (station_map s Station.panicked j)).trans rfl) ?_
  rw [view_panic]
  refine ⟨fun ok => ⟨ok.freeOnce, fun v => (ok.free v).trans (free_panicked _).symm, List.nodup_nil, nofun⟩,
    fun _ _ => ⟨nofun, List.nodup_nil, List.nodup_nil, fun v is => absurd is (silent_panicked _).1, fun k _ => ?_, nofun⟩,
    fun _ => .of_fewer fun j w h => ?_⟩
  · exact PoolView.Unlisted.matches ⟨nofun, nofun, fun v is => absurd is (silent_panicked _).1⟩ (.inl rfl)
  · rcases h with ⟨is | is, -⟩ | ⟨-, c, member, -⟩
    · exact absurd is (silent_panicked _).1
    · exact absurd is (silent_panicked _).2
    · cases member

end Panic

end Sys2Proof.Machine
end

section
/-! The pool's rules through the station engines and the receiver: what of their work reaches the pool is a note's end,
its start, its conditions and its retune. -/

namespace Sys2Proof.Machine

/-! ### What of a station the pool does not notice -/

section Engine
variable (s : State) (i : StationId)

/-- The receiver and the transmitter of a station have no part in the pool. -/
theorem poolKept_updLink (f : Link → Link) : PoolKept s (s.updLink i f) := by
  rw [updLink_eq]
  exact poolKept_updStation rfl rfl

theorem poolKept_updCounters (f : LinkCounters → LinkCounters) : PoolKept s (s.updCounters i f) := poolKept_updLink s i _

theorem poolKept_updBreath (f : Breath → Breath) : PoolKept s (s.updBreath i f) := by
  rw [updBreath_eq]
  exact poolKept_updStation rfl rfl

/-- Of the fingering unit only the note has a part in it. -/
theorem poolKept_updFingering (f : Fingering → Fingering) (note : ∀ g, (f g).note = g.note) :
    PoolKept s (s.updFingering i f) := by
  rw [updFingering_eq]
  exact poolKept_updStation (note _) rfl

/-- The station's work held by a stall, its state and its waiting SYNC have none. -/
theorem poolKept_stall (w : Option StallWork) : PoolKept s (s.updStation i fun x => { x with stall := w }) :=
  poolKept_updStation rfl rfl

theorem poolKept_state (y : StationState) : PoolKept s (s.updStation i fun x => { x with state := y }) :=
  poolKept_updStation rfl rfl

theorem poolKept_syncHanded (b : Bool) : PoolKept s (s.updStation i fun x => { x with syncHanded := b }) :=
  poolKept_updStation rfl rfl

theorem poolKept_replyDue (seq : Nat) : PoolKept s (replyDue s i seq) := poolKept_updStation rfl rfl

theorem poolKept_setRaised (raised : Bool) : PoolKept s (setRaised s i raised) := poolKept_updBreath s i _

theorem poolKept_clearBreath : PoolKept s (clearBreath s i) := poolKept_updBreath s i _

theorem poolKept_computeBreath (breath lip : Nat) : PoolKept s (computeBreath s i breath lip) :=
  poolKept_updStation rfl rfl

theorem poolKept_stopSilence : PoolKept s (stopSilence s i) := poolKept_updLink s i _

theorem poolKept_startSilence : PoolKept s (startSilence s i) := poolKept_updLink s i _

theorem poolKept_setAssembly (a : Option FrameAssembly) : PoolKept s (setAssembly s i a) := poolKept_updLink s i _

theorem poolKept_setCharacter (c : CharacterAssembly) : PoolKept s (setCharacter s i c) := poolKept_updLink s i _

theorem poolKept_reopenWindow : PoolKept s (reopenWindow s i) := poolKept_updLink s i _

theorem poolKept_takeKeys (changed now : Word) : PoolKept s (takeKeys s i changed now) :=
  poolKept_updFingering s i _ fun _ => rfl

theorem poolKept_storeHello (cls keyCount preference : Nat) : PoolKept s (storeHello s i cls keyCount preference) :=
  poolKept_updStation rfl rfl

/-! ### Notes and resolutions -/

theorem poolKept_actOnNote (number : Nat) (raised : Bool) : PoolKept s (actOnNote s i number raised) := by
  unfold actOnNote
  split
  · next silent =>
    split
    · exact poolKept_noteOn silent number raised
    · exact .refl s
  · split
    · exact poolKept_updNote (fun _ => rfl) fun _ => rfl
    · split
      · refine PoolKept.trans ?_ (poolKept_evalConditions i _)
        refine PoolKept.trans ?_ (poolKept_retune _ i)
        exact poolKept_updNote (fun _ => rfl) fun _ => rfl
      · exact (poolKept_noteOff s i).trans (poolKept_noteOn (note_noteOff s i) number raised)

theorem poolKept_resolveMatch (e : CurrentEntry) : PoolKept s (resolveMatch s i e) := by
  unfold resolveMatch
  refine PoolKept.trans ?_ (poolKept_actOnNote _ i _ _)
  refine PoolKept.trans ?_ (poolKept_setRaised _ i _)
  exact poolKept_updFingering s i _ fun _ => rfl

theorem poolKept_resolveMiss : PoolKept s (resolveMiss s i) := by
  unfold resolveMiss
  refine PoolKept.trans ?_ (poolKept_setRaised _ i _)
  refine PoolKept.trans ?_ (poolKept_updFingering _ i _ fun _ => rfl)
  exact poolKept_report s _ _ _ _ _

theorem poolKept_resolution : PoolKept s (resolution s i) := by
  unfold resolution
  split
  · exact poolKept_resolveMatch s i _
  · exact poolKept_resolveMiss s i

theorem poolKept_finishWork (w : StallWork) : PoolKept s (finishWork s i w) := by
  cases w with
  | frame seq => exact (poolKept_evalConditions i s).trans (poolKept_replyDue _ i seq)
  | expiry => exact poolKept_evalConditions i s

theorem poolKept_resolveOrStall (w : StallWork) : PoolKept s (resolveOrStall s i w) := by
  unfold resolveOrStall
  split
  · exact poolKept_stall s i _
  · exact (poolKept_resolution s i).trans (poolKept_finishWork _ i w)

theorem poolKept_resumeStall : PoolKept s (resumeStall s i) := by
  unfold resumeStall
  split
  · exact ((poolKept_stall s i none).trans (poolKept_resolution _ i)).trans (poolKept_finishWork _ i _)
  · exact .refl s

/-! ### Frames -/

theorem poolKept_endNote : PoolKept s (endNote s i) := by
  unfold endNote
  refine PoolKept.trans (poolKept_noteOff s i) ?_
  exact poolKept_updFingering _ i _ fun _ => rfl

theorem poolKept_putBackFingering : PoolKept s (putBackFingering s i) := by
  unfold putBackFingering
  refine PoolKept.trans (poolKept_noteOff s i) ?_
  exact poolKept_updFingering _ i _ fun _ => rfl

theorem poolKept_hushFingering : PoolKept s (hushFingering s i) := by
  unfold hushFingering
  refine PoolKept.trans (poolKept_noteOff s i) ?_
  exact poolKept_updFingering _ i _ fun _ => rfl

theorem poolKept_beginFrame (c : FrameChanges) (keys : Word) : PoolKept s (beginFrame s i c keys) := by
  unfold beginFrame
  dsimp only
  refine PoolKept.trans ?_ (poolKept_updStation rfl rfl)
  refine PoolKept.trans (poolKept_takeKeys s i c.changed (maskKeys (s.station i).keyCount keys)) ?_
  split
  · exact poolKept_endNote _ i
  · exact .refl _

theorem poolKept_performFrame (keys : Word) (breath lip seq : Nat) : PoolKept s (performFrame s i keys breath lip seq) := by
  unfold performFrame
  refine PoolKept.trans (poolKept_computeBreath s i breath lip) ?_
  unfold fingerFrame
  dsimp only
  split
  · exact (poolKept_beginFrame _ i _ keys).trans (poolKept_resolveOrStall _ i _)
  · exact (poolKept_beginFrame _ i _ keys).trans (poolKept_finishWork _ i _)

/-! ### The lifecycle -/

theorem poolKept_leaveLive (x : StationState) : PoolKept s (leaveLive s i x) := by
  unfold leaveLive
  exact (((poolKept_stall s i none).trans (poolKept_putBackFingering _ i)).trans (poolKept_clearBreath _ i)).trans
    (poolKept_state _ i x)

theorem poolKept_enterState (x : StationState) : PoolKept s (enterState s i x) := by
  unfold enterState
  dsimp only
  refine PoolKept.trans ?_ (poolKept_updStation rfl rfl)
  split
  · exact poolKept_leaveLive s i x
  · exact .refl s

theorem poolKept_becomeSynced : PoolKept s (becomeSynced s i) :=
  (poolKept_enterState s i .synced).trans (poolKept_stopSilence _ i)

theorem poolKept_takeSync : PoolKept s (takeSync s i) :=
  (poolKept_syncHanded s i false).trans (poolKept_becomeSynced _ i)

theorem poolKept_handSync : PoolKept s (handSync s i) := by
  unfold handSync
  split
  · exact poolKept_takeSync s i
  · exact poolKept_syncHanded s i true

theorem poolKept_takeHello (cls keyCount preference seq : Nat) :
    PoolKept s (takeHello s i cls keyCount preference seq) := by
  unfold takeHello
  dsimp only
  refine PoolKept.trans ?_ (poolKept_replyDue _ i seq)
  refine PoolKept.trans ((poolKept_storeHello s i cls keyCount preference).trans (poolKept_enterState _ i .calibrating)) ?_
  split
  · exact poolKept_startSilence _ i
  · exact .refl _

theorem poolKept_protocolFault (cause : Nat) (ch : Byte) (gathered : Nat) :
    PoolKept s (protocolFault s i cause ch gathered) :=
  (poolKept_updCounters s i _).trans (poolKept_report _ _ _ _ _ _)

theorem note_sampleStation (b lip : Nat) (x : Station) : (sampleStation b lip x).fingering.note = x.fingering.note := by
  unfold sampleStation
  dsimp only
  split <;> rfl

theorem limits_sampleStation (b lip : Nat) (x : Station) : (sampleStation b lip x).limits = x.limits := by
  unfold sampleStation
  dsimp only
  split <;> rfl

theorem poolKept_takePlay (keys : Word) (breath lip seq : Nat) : PoolKept s (takePlay s i keys breath lip seq) := by
  unfold takePlay
  split
  · exact .refl s
  · exact .refl s
  · exact poolKept_protocolFault s i _ _ _
  · exact (poolKept_updStation (note_sampleStation _ _ _) (limits_sampleStation _ _ _)).trans (poolKept_replyDue _ i seq)
  · exact poolKept_performFrame s i keys breath lip seq
  · exact ((poolKept_state s i .live).trans (poolKept_startSilence _ i)).trans
      (poolKept_performFrame _ i keys breath lip seq)

theorem poolKept_takeHush : PoolKept s (takeHush s i) := by
  unfold takeHush
  split
  · exact (poolKept_hushFingering s i).trans (poolKept_clearBreath _ i)
  · exact .refl s

theorem poolKept_takeSilence : PoolKept s (takeSilence s i) := by
  unfold takeSilence
  split
  · exact ((poolKept_leaveLive s i .lost).trans (poolKept_stopSilence _ i)).trans (poolKept_report _ _ _ _ _ _)
  · exact (poolKept_becomeSynced s i).trans (poolKept_report _ _ _ _ _ _)
  all_goals exact .refl s

theorem poolKept_restartStation : PoolKept s (restartStation s i) := by
  unfold restartStation
  split
  · exact .refl s
  · exact .refl s
  · exact poolKept_reopenWindow s i
  all_goals exact (poolKept_becomeSynced s i).trans (poolKept_reopenWindow _ i)

theorem poolKept_unclip : PoolKept s (s.unclip i) := .of_view (fun _ => rfl) rfl

theorem poolKept_disableStation : PoolKept s (disableStation s i) := by
  unfold disableStation
  refine PoolKept.trans ?_ (poolKept_unclip _ i)
  refine PoolKept.trans (poolKept_enterState s i .disabled) ?_
  exact poolKept_updStation rfl rfl

/-! ### The receiver -/

theorem poolKept_dropIncomplete : PoolKept s (dropIncomplete s i) := by
  unfold dropIncomplete
  split
  · exact .refl s
  · exact (poolKept_setAssembly s i none).trans (poolKept_protocolFault _ i _ _ _)

theorem poolKept_acceptFrame (f : Frame) (missed : Nat) : PoolKept s (acceptFrame s i f missed) := by
  unfold acceptFrame
  dsimp only
  split
  · exact (poolKept_updLink s i _).trans (poolKept_startSilence _ i)
  · exact poolKept_updLink s i _

theorem poolKept_completeFrame (a : FrameAssembly) : PoolKept s (completeFrame s i a) := by
  unfold completeFrame
  split
  · unfold windowFrame
    split
    · exact poolKept_updCounters s i _
    · split
      · exact poolKept_acceptFrame s i _ _
      · exact poolKept_report s _ _ _ _ _
  · exact (poolKept_updCounters s i _).trans (poolKept_report _ _ _ _ _ _)

theorem poolKept_takeCharacter (d : Byte) (mark : Bool) : PoolKept s (takeCharacter s i d mark) := by
  unfold takeCharacter
  split
  · split
    · exact .refl s
    · refine (poolKept_dropIncomplete s i).trans ?_
      unfold beginAssembly
      split
      · exact poolKept_setAssembly _ i _
      · exact poolKept_protocolFault _ i _ _ _
  · unfold takeData
    split
    · exact poolKept_protocolFault s i _ _ _
    · dsimp only
      split
      · exact (poolKept_setAssembly s i none).trans (poolKept_completeFrame _ i _)
      · exact poolKept_setAssembly s i _

theorem poolKept_endCharacter (bits : List Bool) : PoolKept s (endCharacter s i bits) := by
  unfold endCharacter
  split
  · exact poolKept_takeCharacter s i _ _
  · exact ((poolKept_setAssembly s i none).trans (poolKept_updCounters _ i _)).trans (poolKept_report _ _ _ _ _ _)

end Engine

theorem poolKept_hearLevels (i : StationId) (T : Nat) (c : CharacterAssembly) (s : State) (levels : List Bool) :
    PoolKept s (hearLevels i T c s levels) := by
  induction levels generalizing c s with
  | nil =>
    rw [hearLevels]
    exact poolKept_setCharacter s i c
  | cons level levels ih =>
    rw [hearLevels]
    split
    · exact ih _ _
    · exact ((poolKept_setCharacter s i _).trans (poolKept_endCharacter _ i _)).trans (ih _ _)

end Sys2Proof.Machine
end

section
/-! Every step keeps the pool's lists and the slots with them (O56), and the reserves and caps (O57). -/

namespace Sys2Proof.Machine

/-! ### STATION_SET -/

section Settings
variable {s : State} {i : StationId} {new : Settings}

/-- The settings of station i stored, with no effect yet. -/
def stored (s : State) (i : StationId) (new : Settings) : State := s.updStation i fun x => { x with settings := new }

theorem view_stored (s : State) (i : StationId) (new : Settings) : view (stored s i new) = view s := by
  have notes : ∀ j, (stored s i new).note j = s.note j := note_updStation_of_note rfl
  refine view_of_same rfl rfl rfl rfl ?_ ?_
  · funext k
    simp only [slotState, slotOf, notes]
  · funext j
    simp only [noteLayers, notes]

theorem poolOk_of_view {s t : State} (same : view t = view s) (ok : PoolOk s) : PoolOk t := by
  rw [← listsOk_view] at ok ⊢
  rwa [same]

theorem slotsListed_of_view {s t : State} (same : view t = view s) (listed : SlotsListed s) : SlotsListed t := by
  rw [← listed_view] at listed ⊢
  rwa [same]

theorem poolKept_actOnEnable (s : State) (i : StationId) (old : Settings) : PoolKept s (actOnEnable s i old) := by
  unfold actOnEnable
  split
  · exact poolKept_disableStation s i
  · exact poolKept_state s i .offline
  all_goals exact .refl s

theorem poolKept_settingsActOnBreath (s : State) (i : StationId) (old : Settings) :
    PoolKept s (settingsActOnBreath s i old) := poolKept_updStation rfl rfl

theorem poolKept_actOnStall (s : State) (i : StationId) : PoolKept s (actOnStall s i) := by
  unfold actOnStall
  split
  · exact .refl s
  · exact poolKept_resumeStall s i

theorem poolKept_actOnCap (s : State) (i : StationId) (old : Settings) : PoolKept s (actOnCap s i old) := by
  unfold actOnCap
  split
  · exact poolKept_lowerToCap s i
  · exact .refl s

theorem poolKept_actOnPool (s : State) (old new : Settings) : PoolKept s (actOnPool s old new) := by
  unfold actOnPool
  split
  · exact .refl s
  · exact poolKept_serveStarved s

/-- The steps of STATION_SET before a lowered cap acts (R128). -/
def settled (s : State) (i : StationId) (new : Settings) : State :=
  actOnStall (settingsActOnBreath (actOnEnable (stored s i new) i (s.station i).settings) i (s.station i).settings) i

theorem applySettings_eq (s : State) (i : StationId) (new : Settings) : applySettings s i new =
    actOnPool (actOnCap (settled s i new) i (s.station i).settings) (s.station i).settings new := rfl

theorem poolKept_settled (s : State) (i : StationId) (new : Settings) : PoolKept (stored s i new) (settled s i new) :=
  ((poolKept_actOnEnable _ i _).trans (poolKept_settingsActOnBreath _ i _)).trans (poolKept_actOnStall _ i)

theorem poolKept_applySettings (s : State) (i : StationId) (new : Settings) :
    PoolKept (stored s i new) (applySettings s i new) :=
  ((poolKept_settled s i new).trans (poolKept_actOnCap _ i _)).trans (poolKept_actOnPool _ _ _)

end Settings

/-! ### The effects -/

/-- An effect is a reset, a STATION_SET, or leaves the rules of the pool kept. -/
inductive PoolEffect (s t : State) : Prop
  | kept (h : PoolKept s t)
  | reset (h : PoolKept State.reset t)
  | settings (i : StationId) (p : StationSetParams) (template : TemplateId) (chart : ChartId)
      (fits : p.reserve.toNat + otherReserves s i ≤ 32) (is : t = applySettings s i (settingsOf p template chart))

section Effects
variable {s t : State}

theorem poolKept_glideStep (s : State) (v : VoiceId) (rate : Nat) (again : Glide) :
    PoolKept s (s.updVoice v fun x => x.glideStep rate again) := by
  refine .of_view (fun _ => rfl) (view_updVoice_same s v ?_ ?_)
  all_goals
    unfold Voice.glideStep
    dsimp only
    split
    · rfl
    · split <;> rfl

theorem poolKept_dropBuffer (s : State) (i : StationId) : PoolKept s (dropBuffer s i) := poolKept_updLink s i _

theorem Effect.pool (h : Effect s t) : PoolEffect s t := by
  cases h with
  | poweredOn => exact .reset (.refl _)
  | pinReset => exact .reset (.of_view (fun _ => rfl) rfl)
  | settings i p template chart fits => exact .settings i p template chart fits rfl
  | nothing => exact .kept (.refl s)
  | cleared | edited | templates | waves | written => exact .kept (.of_view (fun _ => rfl) rfl)
  | senses i => exact .kept (poolKept_updStation rfl rfl)
  | countersCleared i => exact .kept (poolKept_updStation rfl rfl)
  | restarted i => exact .kept (poolKept_restartStation s i)
  | panicked => exact .kept (poolKept_panic s)
  | editCompleted order =>
    have completed : PoolKept s { s with charts := s.charts.complete } := .of_view (fun _ => rfl) rfl
    exact .kept (completed.trans (.foldl _ (fun s i => poolKept_resumeStall s i) _ _))
  | heard i T levels => exact .kept (poolKept_hearLevels i T _ s levels)
  | synced i T =>
    exact .kept (((poolKept_dropIncomplete s i).trans (poolKept_updLink _ i _)).trans (poolKept_handSync _ i))
  | syncTaken i => exact .kept (poolKept_takeSync s i)
  | hello i => exact .kept ((poolKept_dropBuffer s i).trans (poolKept_takeHello _ i _ _ _ _))
  | played i => exact .kept ((poolKept_dropBuffer s i).trans (poolKept_takePlay _ i _ _ _ _))
  | hushed i => exact .kept ((poolKept_dropBuffer s i).trans (poolKept_takeHush _ i))
  | replyEnded i => exact .kept (poolKept_updLink s i _)
  | settled i =>
    have stopped : PoolKept s (s.updFingering i fun g => { g with settle := .stopped }) :=
      poolKept_updFingering s i _ fun _ => rfl
    exact .kept (stopped.trans (poolKept_resolveOrStall _ i .expiry))
  | silent i => exact .kept (poolKept_takeSilence s i)
  | sampled voices stations => exact .kept (poolKept_samplePeriod voices stations s)
  | glided v => exact .kept (poolKept_glideStep s v _ _)
  | retired v state => exact .kept (poolKept_freeVoice (.inl state))
  | released v state => exact .kept (poolKept_freeVoice (.inr (.inl state)))
  | drained v state orphan => exact .kept (poolKept_freeVoice (.inr (.inr ⟨state, orphan⟩)))
  | handedOver v c state bound => exact .kept (poolKept_handOver state bound)

theorem poolKept_of_sameInside (h : SameInside s t) : PoolKept s t := by
  refine .of_view (fun j => ?_) (view_of_same h.voices h.freeList h.claims h.starve ?_ ?_)
  · rw [State.station, State.station, h.stations]
  · exact slotState_of_stations h.stations
  · exact noteLayers_of_stations h.stations

theorem PoolEffect.poolOk (h : PoolEffect s t) (ok : PoolOk s) : PoolOk t := by
  cases h with
  | kept h => exact h.lists ok
  | reset h => exact h.lists poolOk_reset
  | settings i p template chart _ is =>
    subst is
    exact (poolKept_applySettings s i _).lists (poolOk_of_view (view_stored s i _) ok)

theorem PoolEffect.slotsListed (h : PoolEffect s t) (ok : PoolOk s) (listed : SlotsListed s) : SlotsListed t := by
  cases h with
  | kept h => exact h.slots ok listed
  | reset h => exact h.slots poolOk_reset slotsListed_reset
  | settings i p template chart _ is =>
    subst is
    have same := view_stored s i (settingsOf p template chart)
    exact (poolKept_applySettings s i _).slots (poolOk_of_view same ok) (slotsListed_of_view same listed)

end Effects

/-! ### The slots that the lists name -/

section Bound
variable {s : State}

/-- A slot's owner without the tag: at most one slot of a layer sounds at a station. -/
def Owner.place (o : Owner) : StationId × LayerId := (o.station, o.layer)

/-- The slot that an entry of the starve list names. -/
def Starved.owner (e : Starved) : Owner := ⟨e.station, e.tag, e.layer⟩

theorem starved_owner (e : Starved) : e.owner.starved = e := rfl

theorem owner_inj {e f : Starved} (h : e.owner = f.owner) : e = f := by
  rw [← starved_owner e, ← starved_owner f, h]

def allPlaces : List (StationId × LayerId) :=
  allStations.flatMap fun i => (List.finRange 3).map fun layer => (i, layer)

theorem mem_allPlaces (p : StationId × LayerId) : p ∈ allPlaces :=
  List.mem_flatMap.2 ⟨p.1, List.mem_finRange _, List.mem_map_of_mem (List.mem_finRange p.2)⟩

theorem length_allPlaces : allPlaces.length = 12 := rfl

/-- Two current slots of a station and a layer are one. -/
theorem eq_of_place {k k' : Owner} {x x' : SlotState} (h : slotState s k = some x) (h' : slotState s k' = some x')
    (same : k.place = k'.place) : k = k' := by
  obtain ⟨y, at_, -⟩ := (slotState_eq_some_iff s k x).1 h
  obtain ⟨y', at', -⟩ := (slotState_eq_some_iff s k' x').1 h'
  obtain ⟨n, note, tag, -⟩ := mem_of_slotOf at_
  obtain ⟨n', note', tag', -⟩ := mem_of_slotOf at'
  obtain ⟨station, t, layer⟩ := k
  obtain ⟨station', t', layer'⟩ := k'
  obtain ⟨rfl, rfl⟩ := Prod.mk.inj same
  cases note.symm.trans note'
  exact congrArg (fun t => Owner.mk station t layer) (tag.symm.trans tag')

/-- The slots named by claim table and starve list. -/
def listedOwners (s : State) : List Owner := s.claims.map Claim.owner ++ s.starve.map Starved.owner

theorem named_slot (listed : (view s).Listed) {k : Owner} (h : k ∈ listedOwners s) : ∃ x, slotState s k = some x := by
  rcases List.mem_append.1 h with claim | entry
  · obtain ⟨c, member, rfl⟩ := List.mem_map.1 claim
    exact ⟨_, ((listed.others c.owner id).claiming c.voice).1 member⟩
  · obtain ⟨e, member, rfl⟩ := List.mem_map.1 entry
    exact ⟨_, (listed.others e.owner id).starved.1 member⟩

theorem nodup_listedOwners (listed : (view s).Listed) : (listedOwners s).Nodup := by
  refine List.nodup_append.2 ⟨listed.claimedOnce, ?_, ?_⟩
  · exact (nodup_map_iff_of_inj fun _ _ => owner_inj).2 listed.starvedOnce
  · rintro k claim k' entry rfl
    obtain ⟨c, member, rfl⟩ := List.mem_map.1 claim
    obtain ⟨e, starved, same⟩ := List.mem_map.1 entry
    have claiming : (view s).slot c.owner = _ := ((listed.others c.owner id).claiming c.voice).1 member
    have starves : (view s).slot e.owner = _ := (listed.others e.owner id).starved.1 starved
    rw [same, claiming] at starves
    cases starves

/-- Claim table and starve list hold at most one entry of a station and a layer (R93). -/
theorem entries_le (h : SlotsListed s) : s.claims.length + s.starve.length ≤ 12 := by
  have listed := (listed_view s).2 h
  have places : ((listedOwners s).map Owner.place).Nodup := by
    refine nodup_map_of_inj_on (nodup_listedOwners listed) fun k hk k' hk' same => ?_
    obtain ⟨x, at_⟩ := named_slot listed hk
    obtain ⟨x', at'⟩ := named_slot listed hk'
    exact eq_of_place at_ at' same
  have most := length_le_of_subset places fun p _ => mem_allPlaces p
  rw [length_allPlaces, List.length_map, listedOwners, List.length_append, List.length_map, List.length_map] at most
  exact most

end Bound

/-- Settles O56: every effect but the resets and STATION_SET goes by operations that each keep the rules. -/
theorem stepsKeepThePoolsLists : Obligations.StepsKeepThePoolsLists := by
  unfold Obligations.StepsKeepThePoolsLists
  refine ⟨fun s t ok h => ?_, fun s t ok listed h => ?_, fun s => entries_le⟩
  · exact step_keeps (P := PoolOk) (fun same => (poolKept_of_sameInside same).lists)
      (fun s => (poolKept_passBitTime s).lists) (fun he => he.pool.poolOk) ok h
  · have both : PoolOk t ∧ SlotsListed t :=
      step_keeps (P := fun s => PoolOk s ∧ SlotsListed s)
        (fun same ⟨ok, listed⟩ => ⟨(poolKept_of_sameInside same).lists ok, (poolKept_of_sameInside same).slots ok listed⟩)
        (fun s ⟨ok, listed⟩ => ⟨(poolKept_passBitTime s).lists ok, (poolKept_passBitTime s).slots ok listed⟩)
        (fun he ⟨ok, listed⟩ => ⟨he.pool.poolOk ok, he.pool.slotsListed ok listed⟩) ⟨ok, listed⟩ h
    exact both.2

end Sys2Proof.Machine
end

section
/-! Every step keeps the reserves and the caps (O57). -/

namespace Sys2Proof.Machine

/-! ### Reserves and caps where the limits are the same -/

section Limits
variable {s t : State}

theorem settings_limits {j : StationId} (h : (t.station j).limits = (s.station j).limits) :
    (t.station j).settings.reserve = (s.station j).settings.reserve
      ∧ (t.station j).settings.cap = (s.station j).settings.cap := Prod.mk.inj h

theorem ReservesOk.of_limits (ok : ReservesOk s) (h : ∀ j, (t.station j).limits = (s.station j).limits) : ReservesOk t := by
  have reserve : ∀ j, (t.station j).settings.reserve = (s.station j).settings.reserve := fun j => (settings_limits (h j)).1
  have cap : ∀ j, (t.station j).settings.cap = (s.station j).settings.cap := fun j => (settings_limits (h j)).2
  unfold ReservesOk at ok ⊢
  simp only [reserve, cap]
  exact ok

theorem ListsKept.capsHold (h : ListsKept s t) (ok : PoolOk s) (caps : CapsHold s) : CapsHold t := fun j => by
  have most := h.counts ok j
  have within := caps j
  rw [cap_of_limits (h.limits j)]
  omega

end Limits

/-! ### STATION_SET -/

section Settings
variable {s : State} {i : StationId} {new : Settings}

theorem station_stored (s : State) (i : StationId) (new : Settings) (j : StationId) :
    ((stored s i new).station j).settings = if j = i then new else (s.station j).settings := by
  rw [stored, station_updStation]
  split <;> rfl

theorem stationCount_stored (s : State) (i : StationId) (new : Settings) (j : StationId) :
    stationCount (stored s i new) j = stationCount s j := rfl

/-- The settings of station i come within R83 with the tests and clamps of STATION_SET. -/
theorem reservesOk_stored (ok : ReservesOk s) (fits : new.reserve + otherReserves s i ≤ 32)
    (range : new.reserve ≤ new.cap ∧ 1 ≤ new.cap ∧ new.cap ≤ 32) : ReservesOk (stored s i new) := by
  obtain ⟨-, each⟩ := ok
  refine ⟨?_, fun j => ?_⟩
  · simp only [station_stored]
    refine Nat.le_trans (Nat.le_of_eq ?_) fits
    rw [otherReserves, sum_others]
    have all : allStations = [0, 1, 2, 3] := rfl
    rw [all]
    unfold overStations
    rcases station_cases i with rfl | rfl | rfl | rfl <;> simp <;> omega
  · rw [station_stored]
    split
    · exact range
    · exact each j

/-- The lowered cap of station i is met by removals (R101); the other caps, and a cap not lowered, hold as they did. -/
theorem capsHold_applySettings (ok : PoolOk s) (caps : CapsHold s) : CapsHold (applySettings s i new) := by
  have okStored : PoolOk (stored s i new) := poolOk_of_view (view_stored s i new) ok
  have before := (poolKept_settled s i new).toListsKept
  have okSettled := before.lists okStored
  have cap : ∀ j, ((settled s i new).station j).settings.cap = if j = i then new.cap else (s.station j).settings.cap := by
    intro j
    rw [cap_of_limits (before.limits j), station_stored]
    split <;> rfl
  have most : ∀ j, stationCount (settled s i new) j ≤
      max (s.station j).settings.cap (if j = i then new.cap else (s.station j).settings.cap) := by
    intro j
    have counts := before.counts okStored j
    rw [← cap_of_limits (before.limits j), cap j, stationCount_stored] at counts
    have within := caps j
    omega
  have acted : CapsHold (actOnCap (settled s i new) i (s.station i).settings) := fun j => by
    have act := (poolKept_actOnCap (settled s i new) i (s.station i).settings).toListsKept
    have counts := act.counts okSettled j
    have limit := cap_of_limits (act.limits j)
    have bound := most j
    rw [limit]
    rw [cap j] at counts ⊢
    by_cases own : j = i
    · subst own
      rw [if_pos rfl] at counts bound ⊢
      unfold actOnCap
      have stands : ((settled s j new).station j).settings.cap = new.cap := (cap j).trans (if_pos rfl)
      split
      · have lowered := stationCount_lowerToCap (i := j) 32 okSettled (stationCount_le _ j)
        rwa [stands] at lowered
      · next raised =>
        rw [stands] at raised
        omega
    · rw [if_neg own] at counts bound ⊢
      omega
  rw [applySettings_eq]
  exact (poolKept_actOnPool _ _ _).toListsKept.capsHold
    ((poolKept_actOnCap _ i _).lists okSettled) acted

theorem range_settingsOf {p : StationSetParams} (small : p.reserve.toNat ≤ 32) (template : TemplateId) (chart : ChartId) :
    (settingsOf p template chart).reserve ≤ (settingsOf p template chart).cap
      ∧ 1 ≤ (settingsOf p template chart).cap ∧ (settingsOf p template chart).cap ≤ 32 := by
  simp only [settingsOf]
  omega

end Settings

/-! ### The effects -/

theorem PoolEffect.caps {s t : State} (h : PoolEffect s t) (ok : PoolOk s) (reserves : ReservesOk s) (caps : CapsHold s) :
    ReservesOk t ∧ CapsHold t := by
  cases h with
  | kept h => exact ⟨reserves.of_limits h.limits, h.toListsKept.capsHold ok caps⟩
  | reset h => exact ⟨reservesOk_reset.of_limits h.limits, h.toListsKept.capsHold poolOk_reset capsHold_reset⟩
  | settings i p template chart fits is =>
    subst is
    refine ⟨(reservesOk_stored reserves fits (range_settingsOf (by omega) template chart)).of_limits
      (poolKept_applySettings s i _).limits, capsHold_applySettings ok caps⟩

/-- Settles O57: a claim or a free voice goes only to a station below its cap, and a lowered cap is met by removals. -/
theorem stepsKeepTheCaps : Obligations.StepsKeepTheCaps := by
  unfold Obligations.StepsKeepTheCaps
  refine ⟨fun s ok => ⟨fun v c => claimOf_eq_some_iff ok v c, fun i => ?_⟩, fun s t ok reserves caps h => ?_⟩
  · refine ⟨allVoices.filter (countsTo s i), (List.nodup_finRange 32).filter _, stationCount_eq_length s i, fun v => ?_⟩
    rw [mem_filter_allVoices]
    exact countsTo_iff_counts ok i v
  · have all : PoolOk t ∧ ReservesOk t ∧ CapsHold t :=
      step_keeps (P := fun s => PoolOk s ∧ ReservesOk s ∧ CapsHold s)
        (fun same ⟨ok, reserves, caps⟩ => by
          have kept := (poolKept_of_sameInside same).toListsKept
          exact ⟨kept.lists ok, reserves.of_limits kept.limits, kept.capsHold ok caps⟩)
        (fun s ⟨ok, reserves, caps⟩ => by
          have kept := (poolKept_passBitTime s).toListsKept
          exact ⟨kept.lists ok, reserves.of_limits kept.limits, kept.capsHold ok caps⟩)
        (fun he ⟨ok, reserves, caps⟩ => ⟨he.pool.poolOk ok, he.pool.caps ok reserves caps⟩) ⟨ok, reserves, caps⟩ h
    exact all.2

end Sys2Proof.Machine
end
